-- ==== Sys2Proof/Word.lean ====
section
/-! DEFINITION. The value kinds of 00_scope.md rules R7 and R8: Byte, Word32 and Bytes. (R7's `Int` is Lean's Int.) -/

namespace Sys2Proof

/-- R7: an unsigned 8-bit value. -/
abbrev Byte := BitVec 8

/-- R7: an unsigned 32-bit value; bit 0 is the least significant. -/
abbrev Word32 := BitVec 32

/-- R8: a finite sequence of Byte, of any length, indexed from 0. -/
abbrev Bytes := List Byte

end Sys2Proof
end

