-- ==== Sys2Proof/Config.lean ====
section
/-! DEFINITION. The protocol's constants (00_scope.md R5, fixed as given: R6) and the host's timing parameters
(70_reset_and_hazards.md R195 to R198, R201). No meaning of the block reads a timing parameter. -/

namespace Sys2Proof.Config

/-- R5 `PACKET_LEN`. -/
@[simp] abbrev packetLen : Nat := 21
/-- R5 `TYPE_OFFSET`. -/
@[simp] abbrev typeOffset : Nat := 0
/-- R5 `TYPE_LEN`. -/
@[simp] abbrev typeLen : Nat := 1
/-- R5 `PAYLOAD_OFFSET`. -/
@[simp] abbrev payloadOffset : Nat := 1
/-- R5 `PAYLOAD_LEN`. -/
@[simp] abbrev payloadLen : Nat := 16
/-- R5 `CRC_OFFSET`. -/
@[simp] abbrev crcOffset : Nat := 17
/-- R5 `CRC_LEN`. -/
@[simp] abbrev crcLen : Nat := 4
/-- R5 `CRC_COVER`: the CRC covers bytes 0 to 16. -/
@[simp] abbrev crcCover : Nat := 17
/-- R5 `MAX_CHUNK`. -/
@[simp] abbrev maxChunk : Nat := 16
/-- R5 `SECTOR_MIN`. -/
@[simp] abbrev sectorMin : Int := 0
/-- R5 `SECTOR_MAX`. -/
@[simp] abbrev sectorMax : Int := 255
/-- R5 `CRC_POLY`. -/
abbrev crcPoly : Word32 := 0xEDB88320#32
/-- R5 `CRC_INIT`: what the command CRC_INIT and reset write to ACC (R105, R190). -/
abbrev crcInit : Word32 := 0xFFFFFFFF#32
/-- R5 `CRC_XOROUT`. -/
abbrev crcXorOut : Word32 := 0xFFFFFFFF#32
/-- R5 `REPLY_ACK`. -/
abbrev replyAck : Byte := 0xAA#8
/-- R5 `REPLY_NACK`. -/
abbrev replyNack : Byte := 0x55#8

/-- The host's delays in milliseconds (R195 to R198; 92_eei_decisions.md D18 leaves them open). They bind the host:
only Safety.lean reads them. -/
structure HostTiming where
  /-- R195: the wait after an Ack before the next packet. -/
  ackSettle : Nat
  /-- R196: the wait after the Ack of a CMD_ERASE packet. -/
  postErase : Nat
  /-- R196: the wait after the Ack of a CMD_WRITE packet. -/
  postWrite : Nat
  /-- R197: the longest wait for a reply. -/
  responseTimeout : Nat
  /-- R198: the pause between a NACK's first byte and its code byte. -/
  nackCodeDelay : Nat
  deriving DecidableEq, Repr

/-- R201's defaults. `NACK_CODE_DELAY` has none (91_not_in_source.md N14), so it stays an argument. -/
def HostTiming.defaults (nackCodeDelay : Nat) : HostTiming :=
  { ackSettle := 200, postErase := 500, postWrite := 1000, responseTimeout := 10000, nackCodeDelay := nackCodeDelay }

end Sys2Proof.Config
end

