-- ==== Sys2Proof/Syntax.lean ====
section
/-! DEFINITION. The abstract syntax: what the host may hand to the block (30_encoding.md's three encodings) and the
instructions it decodes to, one constructor per row of opcode_table.json. -/

namespace Sys2Proof

/-- R65: the closed set of wire message types. -/
inductive MessageType where
  | cmdWrite
  | cmdErase
  | data
  | finish
  deriving DecidableEq, Repr

/-- R60: the unit that opcode bits 7..4 name. -/
inductive BlockUnit where
  | crcEngine
  | packetFramer
  | responseDecoder
  deriving DecidableEq, Repr

/-- R61: the command formats N, B, S and V. -/
inductive Format where
  | n
  | b
  | s
  | v
  deriving DecidableEq, Repr

/-- R61: the operand that travels whole with a command. The sector operand is an unbounded Int and a Bytes operand has any
length (R5). -/
inductive Operand where
  | none
  | byte (b : Byte)
  | int (n : Int)
  | bytes (s : Bytes)
  deriving DecidableEq, Repr

/-- What the host hands to the block in one transaction, in one of the three encodings of 30_encoding.md.
`packet` and `reply` are the model's (DESIGN CHOICE, log entry 5): a wire packet given to the framer's check, a reply given
to the response decoder, each under its own row of the opcode table. -/
inductive Request where
  /-- R60: a command is a pair of an opcode byte and an operand. -/
  | command (opcode : Byte) (operand : Operand)
  /-- R64: the bytes of a wire packet. -/
  | packet (s : Bytes)
  /-- R68: the bytes of a reply, as the transport read them. -/
  | reply (r : Bytes)
  deriving DecidableEq, Repr

/-- One constructor per row of opcode_table.json: the eleven commands of R62, the four wire message types of R65 and the
four reply classes of R68. -/
inductive Instr where
  /-- `CRC_INIT` (R105). -/
  | crcInit
  /-- `CRC_UPDATE b` (R106). -/
  | crcUpdate (b : Byte)
  /-- `CRC_FINAL` (R107). -/
  | crcFinal
  /-- `CRC32 s` (R108). -/
  | crc32 (s : Bytes)
  /-- `BUILD_CMD_WRITE sector` (R126). -/
  | buildCmdWrite (sector : Int)
  /-- `BUILD_CMD_ERASE sector` (R127). -/
  | buildCmdErase (sector : Int)
  /-- `BUILD_DATA chunk` (R128). -/
  | buildData (chunk : Bytes)
  /-- `BUILD_FINISH` (R129). -/
  | buildFinish
  /-- `VERIFY_SIZE s` (R130). -/
  | verifySize (s : Bytes)
  /-- `CHECK_FRAME s` (R131). -/
  | checkFrame (s : Bytes)
  /-- `INTERPRET r` (R152). -/
  | interpret (r : Bytes)
  /-- Wire packet `CMD_WRITE` (R64, R65): frame bytes 1..16 and the CRC field of bytes 17..20. -/
  | pktCmdWrite (payload : Bytes) (crc : Word32)
  /-- Wire packet `CMD_ERASE`. -/
  | pktCmdErase (payload : Bytes) (crc : Word32)
  /-- Wire packet `DATA`. -/
  | pktData (payload : Bytes) (crc : Word32)
  /-- Wire packet `FINISH`. -/
  | pktFinish (payload : Bytes) (crc : Word32)
  /-- Reply `ACK` (R68): first byte 0xAA, and the bytes after it, which R156 ignores. -/
  | replyAck (rest : Bytes)
  /-- Reply `NACK` (R68, R70): first byte 0x55, the error code if present, and the bytes after it, which R156 ignores. -/
  | replyNack (code : Option Byte) (rest : Bytes)
  /-- Reply `UNRECOGNIZED` (R68, R71): any other first byte, and the bytes after it, which R156 ignores. -/
  | replyUnrecognized (b : Byte) (rest : Bytes)
  /-- Reply `NO_RESPONSE` (R68): the empty reply. -/
  | replyNoResponse
  deriving DecidableEq, Repr

/-- R74: the ways a Bytes operand may be written in the assembler syntax. -/
inductive BytesText where
  /-- `[0xHH, 0xHH, ...]`, with `[]` for empty. -/
  | bytes (s : Bytes)
  /-- A double-quoted ASCII string, standing for its character codes. -/
  | ascii (text : String)
  /-- `zeros(n)`. -/
  | zeros (n : Nat)
  /-- `s ++ t`. -/
  | append (s t : BytesText)
  deriving DecidableEq, Repr

end Sys2Proof
end

