-- ==== Sys2Proof/Machine/Operands.lean ====
section
/-! DEFINITION. Operand forms and byte helpers: sequences (00_scope.md R8), byte order (20_memory.md R42), the message type
byte (30_encoding.md R65), padding and the sector check (41_packet_framer.md R122, R123), and the layout of a packet (R64). -/

namespace Sys2Proof

/-- R8: `zeros(n)`, `n` bytes of value 0. -/
def zeros (n : Nat) : Bytes := List.replicate n 0#8

/-- R8: `s[i]`. Past the end (R8 gives it no meaning; no rule asks for it) it answers 0. -/
def byteAt (s : Bytes) (i : Nat) : Byte := s.getD i 0#8

/-- R8: `s[a..b]`, elements `a` through `b` inclusive. -/
def slice (s : Bytes) (a b : Nat) : Bytes := (s.drop a).take (b + 1 - a)

/-- R7: a Byte widened with zeros. -/
def zext32 (b : Byte) : Word32 := b.setWidth 32

/-- R8, R42: `[v[7:0], v[15:8], v[23:16], v[31:24]]`. -/
def le32 (v : Word32) : Bytes :=
  [v.extractLsb' 0 8, v.extractLsb' 8 8, v.extractLsb' 16 8, v.extractLsb' 24 8]

/-- R8, R42: the word a sequence of four bytes stands for, least significant byte first. -/
def fromLe32 (s : Bytes) : Word32 :=
  zext32 (byteAt s 0) ||| zext32 (byteAt s 1) <<< 8 ||| zext32 (byteAt s 2) <<< 16 ||| zext32 (byteAt s 3) <<< 24

/-- R65: a message type's byte. -/
def typeByte : MessageType → Byte
  | .cmdWrite => 0x01#8
  | .cmdErase => 0x02#8
  | .data => 0x03#8
  | .finish => 0x04#8

/-- R65, R67: the message type a type byte encodes; 0x00 and 0x05-0xFF are reserved. -/
def typeOfByte (b : Byte) : Option MessageType :=
  if b = 0x01#8 then some .cmdWrite
  else if b = 0x02#8 then some .cmdErase
  else if b = 0x03#8 then some .data
  else if b = 0x04#8 then some .finish
  else none

/-- R64: a packet's bytes in offset order: type, payload, CRC field little-endian. -/
def packetBytes (t : MessageType) (payload : Bytes) (crc : Word32) : Bytes :=
  typeByte t :: payload ++ le32 crc

/-- R122: `c ++ zeros(16 - len(c))`, for `len(c) <= 16`. -/
def pad16 (c : Bytes) : Bytes := c ++ zeros (Config.payloadLen - c.length)

/-- R123: `0 <= n && n <= 255`. -/
def validSector (n : Int) : Bool := decide (Config.sectorMin ≤ n ∧ n ≤ Config.sectorMax)

/-- R123: a valid sector as the Byte of the same value. -/
def sectorByte (n : Int) : Byte := BitVec.ofInt 8 n

/-- R66: the payload of a CMD frame, the sector and fifteen zeros. -/
def sectorPayload (n : Int) : Bytes := sectorByte n :: zeros 15

/-- R74: the byte sequence that a written Bytes operand stands for.

DESIGN CHOICE (log entry 11): R74 speaks of ASCII strings only; a character outside ASCII stands here for its code modulo 256. -/
def BytesText.value : BytesText → Bytes
  | .bytes s => s
  | .ascii text => text.toList.map (fun c => BitVec.ofNat 8 c.toNat)
  | .zeros n => Sys2Proof.zeros n
  | .append s t => s.value ++ t.value

/-- R61: the format whose operand kind an operand has. -/
def Operand.format : Operand → Format
  | .none => .n
  | .byte _ => .b
  | .int _ => .s
  | .bytes _ => .v

end Sys2Proof
end

