-- ==== Sys2Proof/Machine/State.lean ====
section
/-! DEFINITION. The machine's state and the kinds of value a command completes with. The spec's state is `acc` alone
(10_state.md R31); `inbox` and `completion` are the model's own fields, the Command and the Status × Option Result of
R20's step (log entries 1 and 2). -/

namespace Sys2Proof.Machine

/-- R151: the taxonomy of NACK error codes. -/
inductive NackReason where
  | unsupportedMessageType
  | crcCheckFailed
  | messageQueueFull
  | invalidCommandData
  | orderingViolation
  | unknown (c : Byte)
  deriving DecidableEq, Repr

/-- R150: the response decoder's result kind `Outcome`. -/
inductive ReplyOutcome where
  | ack
  /-- `none` is "NACK with no error code". -/
  | nack (code : Option Byte)
  /-- The first reply byte, preserved. -/
  | unrecognized (b : Byte)
  /-- The empty reply. -/
  | timeout
  deriving DecidableEq, Repr

/-- R75: why CHECK_FRAME finds a frame invalid. -/
inductive InvalidReason where
  | badLength
  | badCrc
  | badType
  deriving DecidableEq, Repr

/-- R75: CHECK_FRAME's result kind. -/
inductive FrameCheck where
  | valid (type : MessageType) (payload : Bytes)
  | invalid (reason : InvalidReason)
  deriving DecidableEq, Repr

/-- R75: the result of a command, by kind. -/
inductive Result where
  | word32 (v : Word32)
  | frame (f : Bytes)
  | bool (b : Bool)
  | frameCheck (c : FrameCheck)
  | outcome (o : ReplyOutcome)
  deriving DecidableEq, Repr

/-- R171: the statuses, each with the information it records. -/
inductive Status where
  | ok
  /-- The sector operand. -/
  | invalidSector (sector : Int)
  /-- `len(chunk)`. -/
  | payloadTooLarge (length : Nat)
  /-- The opcode byte. -/
  | illegalCommand (opcode : Byte)
  deriving DecidableEq, Repr

/-- R75, R170: a command completes with exactly one status and, when it is OK, with a result of the command's kind (none
for a kind "none"). -/
structure Completion where
  status : Status
  result : Option Result
  deriving DecidableEq, Repr

/-- An input of the block: the reset input (R190), or one transaction of the host (R20). -/
inductive Event where
  | reset
  | request (r : Request)
  deriving DecidableEq, Repr

/-- The machine. -/
structure State where
  /-- `ACC`, the CRC accumulator: the block's only register (R21). -/
  acc : Word32
  /-- The model's own field: the inputs still to come, oldest first (R51; log entry 1). -/
  inbox : List Event
  /-- The model's own field: what the last step handed back to the host, none if it completed no command (R25; log entry
  2). No command reads it. -/
  completion : Option Completion
  deriving DecidableEq, Repr

/-- Why the machine stops. It has no constructor: "Every command completes" (R170), and the block has no trap (R176), so no
step faults. Safe: there is nothing to raise. -/
inductive Fault where
  deriving DecidableEq, Repr

/-- Why an instruction has no meaning in this model. -/
inductive Refusal where
  /-- Raised by an arm of exec for an instruction that has no meaning yet. Safe: the machine stops. No arm raises it. -/
  | notModelled (mnemonic : String)
  deriving DecidableEq, Repr

/-- R22, R31, R190: ACC is 0xFFFFFFFF, and that is all state. Nothing has been handed to the block and nothing has
completed (log entries 1 and 2). -/
def State.reset : State := { acc := 0xFFFFFFFF#32, inbox := [], completion := none }

end Sys2Proof.Machine
end

