-- ==== Sys2Proof/Machine/Ops.lean ====
section
/-! DEFINITION. The shared operations: the accumulator, completing a command, raising an error, reset, and the input port.
There is no memory operation, because the block has no memory (10_state.md R28). -/

namespace Sys2Proof.Machine

/-- A step's answer. -/
abbrev Answer := Host.Outcome State Fault Refusal

/-- R9: `ACC <- v`. -/
def writeAcc (v : Word32) (s : State) : State := { s with acc := v }

/-- Hand a completion to the host, in place of the last one (R25: it is not kept). -/
def setCompletion (c : Option Completion) (s : State) : State := { s with completion := c }

/-- The inputs that are left after the oldest one is taken. -/
def setInbox (rest : List Event) (s : State) : State := { s with inbox := rest }

/-- R9: `return`: the command completes OK with this result (R75). -/
def complete (result : Option Result) (s : State) : Answer :=
  .next (setCompletion (some { status := .ok, result := result }) s)

/-- R9: `raise`, the block's form of taking an exception (R170, R173): the command completes with the error status, returns
no result and writes no state. It saves nothing and goes nowhere (R176), so there is no return from it: the next command runs
normally. -/
def raise (status : Status) (s : State) : Answer :=
  .next (setCompletion (some { status := status, result := none }) s)

/-- R190: reset sets ACC, and so all state, to the reset value. It is no command, so it completes none (log entry 4). -/
def resetBlock (s : State) : State := setCompletion none (writeAcc Config.crcInit s)

/-- R20, R50: with no input the block waits, and no part of it changes; nothing completes (log entry 3). -/
def idle (s : State) : State := setCompletion none s

end Sys2Proof.Machine
end

