-- ==== Sys2Proof/Machine/Crc.lean ====
section
/-! DEFINITION. The CRC-32 engine (40_crc_engine.md R101 to R108). -/

namespace Sys2Proof.Machine

/-- R101: one iteration of the inner loop; the low bit is tested before the shift. -/
def crcBitStep (a : Word32) : Word32 :=
  if a.getLsbD 0 then (a >>> 1) ^^^ Config.crcPoly else a >>> 1

/-- R102: `n` iterations. -/
def crcBitSteps : Nat → Word32 → Word32
  | 0, a => a
  | n + 1, a => crcBitSteps n (crcBitStep a)

/-- R102: one input byte, XORed into the low byte of the accumulator, then eight iterations. -/
def crcAbsorb (a : Word32) (b : Byte) : Word32 := crcBitSteps 8 (a ^^^ zext32 b)

/-- R104's loop: bytes in index order. -/
def crcAbsorbAll (a : Word32) (s : Bytes) : Word32 := s.foldl crcAbsorb a

/-- R103: `~a`. -/
def crcFinalize (a : Word32) : Word32 := ~~~a

/-- R104: the source's `crc32(bytes)`, over a working accumulator of its own (R29). -/
def crc32 (s : Bytes) : Word32 := crcFinalize (crcAbsorbAll Config.crcInit s)

/-- R105 `CRC_INIT`. -/
def execCrcInit (s : State) : Answer := complete none (writeAcc Config.crcInit s)

/-- R106 `CRC_UPDATE b`. -/
def execCrcUpdate (b : Byte) (s : State) : Answer := complete none (writeAcc (crcAbsorb s.acc b) s)

/-- R107 `CRC_FINAL`: ACC is read and not written. -/
def execCrcFinal (s : State) : Answer := complete (some (.word32 (crcFinalize s.acc))) s

/-- R108 `CRC32 s`: ACC is neither read nor written. -/
def execCrc32 (bs : Bytes) (s : State) : Answer := complete (some (.word32 (crc32 bs))) s

end Sys2Proof.Machine
end

