-- ==== Sys2Proof/Machine/Framer.lean ====
section
/-! DEFINITION. The packet framer (41_packet_framer.md R120 to R134) and the wire packets of 30_encoding.md R64 to R67. -/

namespace Sys2Proof.Machine

/-- R121: the frame of a type and a payload: the CRC of bytes 0..16 goes little-endian into bytes 17..20. -/
def sealFrame (t : MessageType) (payload : Bytes) : Bytes :=
  packetBytes t payload (crc32 (typeByte t :: payload))

/-- R126, R127: a CMD builder of either type. -/
def buildCmd (t : MessageType) (sector : Int) (s : State) : Answer :=
  if validSector sector then complete (some (.frame (sealFrame t (sectorPayload sector)))) s
  else raise (.invalidSector sector) s

/-- R131: length, then CRC, then type (R174). Padding is not checked. -/
def checkFrame (f : Bytes) : FrameCheck :=
  if f.length ≠ Config.packetLen then .invalid .badLength
  else if fromLe32 (slice f Config.crcOffset 20) ≠ crc32 (slice f 0 16) then .invalid .badCrc
  else
    match typeOfByte (byteAt f Config.typeOffset) with
    | some t => .valid t (slice f Config.payloadOffset 16)
    | none => .invalid .badType

/-- R134, for orientation only: the NACK code that a reason corresponds to. It is no rule of the block and predicts nothing of
a device. -/
def InvalidReason.nackCode : InvalidReason → Option Byte
  | .badLength => none
  | .badCrc => some 2#8
  | .badType => some 1#8

/-- R126 `BUILD_CMD_WRITE sector`. -/
def execBuildCmdWrite (sector : Int) (s : State) : Answer := buildCmd .cmdWrite sector s

/-- R127 `BUILD_CMD_ERASE sector`. -/
def execBuildCmdErase (sector : Int) (s : State) : Answer := buildCmd .cmdErase sector s

/-- R128 `BUILD_DATA chunk`. -/
def execBuildData (chunk : Bytes) (s : State) : Answer :=
  if chunk.length > Config.maxChunk then raise (.payloadTooLarge chunk.length) s
  else complete (some (.frame (sealFrame .data (pad16 chunk)))) s

/-- R129 `BUILD_FINISH`. -/
def execBuildFinish (s : State) : Answer :=
  complete (some (.frame (sealFrame .finish (zeros Config.payloadLen)))) s

/-- R130 `VERIFY_SIZE s`: the content is not examined. -/
def execVerifySize (f : Bytes) (s : State) : Answer :=
  complete (some (.bool (f.length == Config.packetLen))) s

/-- R131 `CHECK_FRAME s`: OK for every operand, a bad frame is a result. -/
def execCheckFrame (f : Bytes) (s : State) : Answer := complete (some (.frameCheck (checkFrame f))) s

/-- A wire packet given to the framer: its check (R131) of the packet's bytes (R64). Log entry 5. -/
def checkPacket (t : MessageType) (payload : Bytes) (crc : Word32) (s : State) : Answer :=
  complete (some (.frameCheck (checkFrame (packetBytes t payload crc)))) s

/-- Wire packet `CMD_WRITE` (R65, R131). -/
def execPktCmdWrite (payload : Bytes) (crc : Word32) (s : State) : Answer := checkPacket .cmdWrite payload crc s

/-- Wire packet `CMD_ERASE` (R65, R131). -/
def execPktCmdErase (payload : Bytes) (crc : Word32) (s : State) : Answer := checkPacket .cmdErase payload crc s

/-- Wire packet `DATA` (R65, R131). -/
def execPktData (payload : Bytes) (crc : Word32) (s : State) : Answer := checkPacket .data payload crc s

/-- Wire packet `FINISH` (R65, R131). -/
def execPktFinish (payload : Bytes) (crc : Word32) (s : State) : Answer := checkPacket .finish payload crc s

end Sys2Proof.Machine
end

