-- ==== Sys2Proof/Machine/Responder.lean ====
section
/-! DEFINITION. The response decoder (42_response_decoder.md R150 to R156) and the replies of 30_encoding.md R68 to R71. -/

namespace Sys2Proof.Machine

/-- R151: the reason a NACK error code names. -/
def nackReason (c : Byte) : NackReason :=
  if c = 1#8 then .unsupportedMessageType
  else if c = 2#8 then .crcCheckFailed
  else if c = 3#8 then .messageQueueFull
  else if c = 4#8 then .invalidCommandData
  else if c = 5#8 then .orderingViolation
  else .unknown c

/-- R151, R155: the source's text of a reason; it gives none for an unknown code. The texts are informative. -/
def NackReason.text : NackReason → Option String
  | .unsupportedMessageType => some "unsupported message type"
  | .crcCheckFailed => some "CRC check failed"
  | .messageQueueFull => some "message queue full"
  | .invalidCommandData => some "invalid command data (sector out of range)"
  | .orderingViolation => some "message ordering violation (DATA before CMD)"
  | .unknown _ => none

/-- R155: how a NACK is reported. -/
def nackReport : Option Byte → Option String
  | none => some "NACK with no error code"
  | some c => (nackReason c).text

/-- R152: only the first byte decides the class; bytes after the deciding ones are ignored (R156). -/
def interpretReply (r : Bytes) : ReplyOutcome :=
  match r with
  | [] => .timeout
  | b :: rest =>
    if b = Config.replyAck then .ack
    else if b = Config.replyNack then .nack rest.head?
    else .unrecognized b

/-- R152 `INTERPRET r`: OK for every reply. -/
def execInterpret (r : Bytes) (s : State) : Answer := complete (some (.outcome (interpretReply r))) s

/-- Reply `ACK` (R68, R152). -/
def execReplyAck (rest : Bytes) (s : State) : Answer :=
  complete (some (.outcome (interpretReply (Config.replyAck :: rest)))) s

/-- Reply `NACK` (R68, R70, R152). -/
def execReplyNack (code : Option Byte) (rest : Bytes) (s : State) : Answer :=
  complete (some (.outcome (interpretReply (Config.replyNack :: (code.toList ++ rest))))) s

/-- Reply `UNRECOGNIZED` (R68, R71, R152). -/
def execReplyUnrecognized (b : Byte) (rest : Bytes) (s : State) : Answer :=
  complete (some (.outcome (interpretReply (b :: rest)))) s

/-- Reply `NO_RESPONSE` (R68, R152). -/
def execReplyNoResponse (s : State) : Answer := complete (some (.outcome (interpretReply []))) s

end Sys2Proof.Machine
end

