-- ==== Sys2Proof/Machine/Dispatch.lean ====
section
/-! DEFINITION. One arm per instruction. -/

namespace Sys2Proof.Machine

def exec (i : Instr) (s : State) : Host.Outcome State Fault Refusal :=
  match i with
  -- CRC-32 engine
  | .crcInit => Sys2Proof.Machine.execCrcInit s
  | .crcUpdate b => Sys2Proof.Machine.execCrcUpdate b s
  | .crcFinal => Sys2Proof.Machine.execCrcFinal s
  | .crc32 bs => Sys2Proof.Machine.execCrc32 bs s
  -- packet framer
  | .buildCmdWrite sector => Sys2Proof.Machine.execBuildCmdWrite sector s
  | .buildCmdErase sector => Sys2Proof.Machine.execBuildCmdErase sector s
  | .buildData chunk => Sys2Proof.Machine.execBuildData chunk s
  | .buildFinish => Sys2Proof.Machine.execBuildFinish s
  | .verifySize f => Sys2Proof.Machine.execVerifySize f s
  | .checkFrame f => Sys2Proof.Machine.execCheckFrame f s
  -- response decoder
  | .interpret r => Sys2Proof.Machine.execInterpret r s
  -- wire packets
  | .pktCmdWrite payload crc => Sys2Proof.Machine.execPktCmdWrite payload crc s
  | .pktCmdErase payload crc => Sys2Proof.Machine.execPktCmdErase payload crc s
  | .pktData payload crc => Sys2Proof.Machine.execPktData payload crc s
  | .pktFinish payload crc => Sys2Proof.Machine.execPktFinish payload crc s
  -- replies
  | .replyAck rest => Sys2Proof.Machine.execReplyAck rest s
  | .replyNack code rest => Sys2Proof.Machine.execReplyNack code rest s
  | .replyUnrecognized b rest => Sys2Proof.Machine.execReplyUnrecognized b rest s
  | .replyNoResponse => Sys2Proof.Machine.execReplyNoResponse s

end Sys2Proof.Machine
end

