-- ==== Sys2Proof/WellFormed.lean ====
section
/-! DEFINITION. When an instruction is one that its row's encoding admits. Commands carry typed operands, and every operand
value is legal as an encoding (a sector outside 0..255 is an operand VALUE that R126 answers with a status, R61 admits it). -/

namespace Sys2Proof

/-- R64: a packet's payload is 16 bytes. R68 to R70: a NACK reply without a code byte is one byte long, and an unrecognized
reply's first byte is neither `0xAA` nor `0x55`. -/
def Instr.wellFormed : Instr → Bool
  | .crcInit => true
  | .crcUpdate _ => true
  | .crcFinal => true
  | .crc32 _ => true
  | .buildCmdWrite _ => true
  | .buildCmdErase _ => true
  | .buildData _ => true
  | .buildFinish => true
  | .verifySize _ => true
  | .checkFrame _ => true
  | .interpret _ => true
  | .pktCmdWrite payload _ => payload.length == Config.payloadLen
  | .pktCmdErase payload _ => payload.length == Config.payloadLen
  | .pktData payload _ => payload.length == Config.payloadLen
  | .pktFinish payload _ => payload.length == Config.payloadLen
  | .replyAck _ => true
  | .replyNack code rest => code.isSome || rest.isEmpty
  | .replyUnrecognized b _ => b != Config.replyAck && b != Config.replyNack
  | .replyNoResponse => true

end Sys2Proof
end

