-- ==== Sys2Proof/Decode.lean ====
section
/-! DEFINITION. The decoder (30_encoding.md R60 to R73), total on every request and rejecting by name, then the encoder,
then the layout of an opcode table word. -/

namespace Sys2Proof

/-- Why a request names no instruction. -/
inductive DecodeError where
  /-- R63: the opcode byte is not in R62's map. -/
  | illegalOpcode (opcode : Byte)
  /-- R63: the operand has not the kind that the opcode's format requires. -/
  | wrongOperandKind (opcode : Byte)
  /-- R64, R67: the bytes are not 21, or the type byte is reserved. -/
  | notAPacket (s : Bytes)
  deriving DecidableEq, Repr

/-- R62's map: an opcode byte's format, or none for an illegal opcode (R63). -/
def formatOfOpcode (opcode : Byte) : Option Format :=
  if opcode = 0x10#8 then some .n
  else if opcode = 0x11#8 then some .b
  else if opcode = 0x12#8 then some .n
  else if opcode = 0x13#8 then some .v
  else if opcode = 0x20#8 then some .s
  else if opcode = 0x21#8 then some .s
  else if opcode = 0x22#8 then some .v
  else if opcode = 0x23#8 then some .n
  else if opcode = 0x24#8 then some .v
  else if opcode = 0x25#8 then some .v
  else if opcode = 0x30#8 then some .v
  else none

/-- R60: the unit that opcode bits 7..4 name. -/
def unitOfOpcode (opcode : Byte) : Option BlockUnit :=
  if opcode.extractLsb' 4 4 = 0x1#4 then some .crcEngine
  else if opcode.extractLsb' 4 4 = 0x2#4 then some .packetFramer
  else if opcode.extractLsb' 4 4 = 0x3#4 then some .responseDecoder
  else none

/-- R60: the function within the unit, opcode bits 3..0. -/
def functionOfOpcode (opcode : Byte) : BitVec 4 := opcode.extractLsb' 0 4

/-- R60 to R63: the command that an opcode byte and an operand name. -/
def decodeCommand (opcode : Byte) (operand : Operand) : Except DecodeError Instr :=
  match opcode, operand with
  | 0x10#8, .none => .ok .crcInit
  | 0x11#8, .byte b => .ok (.crcUpdate b)
  | 0x12#8, .none => .ok .crcFinal
  | 0x13#8, .bytes s => .ok (.crc32 s)
  | 0x20#8, .int n => .ok (.buildCmdWrite n)
  | 0x21#8, .int n => .ok (.buildCmdErase n)
  | 0x22#8, .bytes c => .ok (.buildData c)
  | 0x23#8, .none => .ok .buildFinish
  | 0x24#8, .bytes s => .ok (.verifySize s)
  | 0x25#8, .bytes s => .ok (.checkFrame s)
  | 0x30#8, .bytes r => .ok (.interpret r)
  | op, _ => if (formatOfOpcode op).isSome then .error (.wrongOperandKind op) else .error (.illegalOpcode op)

/-- The packet constructor of a message type. -/
def packetInstr (t : MessageType) (payload : Bytes) (crc : Word32) : Instr :=
  match t with
  | .cmdWrite => .pktCmdWrite payload crc
  | .cmdErase => .pktCmdErase payload crc
  | .data => .pktData payload crc
  | .finish => .pktFinish payload crc

/-- R64, R65, R67: a packet's row is selected by its type byte; its fields are at fixed offsets. -/
def decodePacket (s : Bytes) : Except DecodeError Instr :=
  if s.length = Config.packetLen then
    match typeOfByte (byteAt s Config.typeOffset) with
    | some t => .ok (packetInstr t (slice s Config.payloadOffset 16) (fromLe32 (slice s Config.crcOffset 20)))
    | none => .error (.notAPacket s)
  else .error (.notAPacket s)

/-- R68 to R71: a reply's row is selected by its first byte. Every reply has one. -/
def decodeReply (r : Bytes) : Instr :=
  match r with
  | [] => .replyNoResponse
  | b :: rest =>
    if b = Config.replyAck then .replyAck rest
    else if b = Config.replyNack then
      match rest with
      | [] => .replyNack none []
      | c :: more => .replyNack (some c) more
    else .replyUnrecognized b rest

/-- The decoder: the instruction a request names, or why it names none. -/
def decode : Request → Except DecodeError Instr
  | .command opcode operand => decodeCommand opcode operand
  | .packet s => decodePacket s
  | .reply r => .ok (decodeReply r)

/-- The encoder: the request that hands a well-formed instruction to the block, from R62, R64 and R68. -/
def encode : Instr → Request
  | .crcInit => .command 0x10#8 .none
  | .crcUpdate b => .command 0x11#8 (.byte b)
  | .crcFinal => .command 0x12#8 .none
  | .crc32 s => .command 0x13#8 (.bytes s)
  | .buildCmdWrite n => .command 0x20#8 (.int n)
  | .buildCmdErase n => .command 0x21#8 (.int n)
  | .buildData c => .command 0x22#8 (.bytes c)
  | .buildFinish => .command 0x23#8 .none
  | .verifySize s => .command 0x24#8 (.bytes s)
  | .checkFrame s => .command 0x25#8 (.bytes s)
  | .interpret r => .command 0x30#8 (.bytes r)
  | .pktCmdWrite payload crc => .packet (packetBytes .cmdWrite payload crc)
  | .pktCmdErase payload crc => .packet (packetBytes .cmdErase payload crc)
  | .pktData payload crc => .packet (packetBytes .data payload crc)
  | .pktFinish payload crc => .packet (packetBytes .finish payload crc)
  | .replyAck rest => .reply (Config.replyAck :: rest)
  | .replyNack none rest => .reply (Config.replyNack :: rest)
  | .replyNack (some c) rest => .reply (Config.replyNack :: c :: rest)
  | .replyUnrecognized b rest => .reply (b :: rest)
  | .replyNoResponse => .reply []

/-- The bytes of a number, lowest first. -/
def numberBytes : Nat → Nat → Bytes
  | 0, _ => []
  | k + 1, w => BitVec.ofNat 8 w :: numberBytes k (w / 256)

/-- The number that bytes stand for, lowest first. -/
def bytesNumber : Bytes → Nat
  | [] => 0
  | b :: rest => b.toNat + 256 * bytesNumber rest

/-- The operand that the bytes after an opcode give a format (DESIGN CHOICE, log entry 6: the spec carries operands as
values and gives them no bit layout). Absent bits are 0. Left-over bytes, or any operand bytes of an illegal opcode, keep
the kind Bytes, so that format N and B commands with too many bytes have the wrong kind. -/
def tableOperand (format : Option Format) (rest : Bytes) : Operand :=
  match format, rest with
  | some .n, [] => .none
  | some .b, [] => .byte 0#8
  | some .b, [b] => .byte b
  | some .s, rest => .int (bytesNumber rest)
  | some .v, rest => .bytes rest
  | _, rest => .bytes rest

/-- A byte list filled up with zeros to a length. -/
def fillTo (n : Nat) (s : Bytes) : Bytes := s ++ zeros (n - s.length)

/-- The request that an opcode table word stands for (log entry 6). The table's words name three encodings: no bits at all
is the empty reply, a first byte 0x01-0x04 is a wire packet (R65), 0xAA or 0x55 is a reply (R68), and any other first byte
is a command's opcode (R62). These sets of first bytes do not meet. -/
def tableRequest (nbits w : Nat) : Request :=
  match numberBytes (nbits / 8) w with
  | [] => .reply []
  | b :: rest =>
    if (typeOfByte b).isSome then .packet (fillTo Config.packetLen (b :: rest))
    else if b = Config.replyAck ∨ b = Config.replyNack then .reply (b :: rest)
    else .command b (tableOperand (formatOfOpcode b) rest)

/-- The instruction the decoder reads from an opcode table word. -/
def decodeTableWord (nbits w : Nat) : Option Instr :=
  match decode (tableRequest nbits w) with
  | .ok i => some i
  | .error _ => none

end Sys2Proof
end

