-- ==== Sys2Proof/Machine/Reject.lean ====
section
/-! DEFINITION. What completes when a request names no instruction (30_encoding.md R63, 60_exceptions.md R171, R174). -/

namespace Sys2Proof.Machine

/-- R63, R171: an illegal opcode or a wrong operand kind completes with ILLEGAL_COMMAND. Bytes that are no packet of any row
complete as the framer's check of them does (R67, R131; log entry 5). -/
def rejectRequest (e : DecodeError) (s : State) : Answer :=
  match e with
  | .illegalOpcode opcode => raise (.illegalCommand opcode) s
  | .wrongOperandKind opcode => raise (.illegalCommand opcode) s
  | .notAPacket f => complete (some (.frameCheck (checkFrame f))) s

end Sys2Proof.Machine
end

