-- ==== Sys2Proof/Machine/Step.lean ====
section
/-! DEFINITION. One step (10_state.md R20): the block takes its oldest input and performs it whole. -/

namespace Sys2Proof.Machine

/-- R20: one request, decoded and performed. -/
def perform (r : Request) (s : State) : Host.Outcome State Fault Refusal :=
  match decode r with
  | .ok i => exec i s
  | .error e => rejectRequest e s

/-- R20, R51: the oldest input takes effect, whole, on the state all earlier ones left. Reset comes between commands (R190).
With no input the block waits (log entry 3). -/
def step (s : State) : Host.Outcome State Fault Refusal :=
  match s.inbox with
  | [] => .next (idle s)
  | .reset :: rest => .next (resetBlock (setInbox rest s))
  | .request r :: rest => perform r (setInbox rest s)

/-- The state in which an opcode table word is the very next input (log entry 6). -/
def State.withFetchWord (s : State) (nbits w : Nat) : State :=
  setInbox (.request (tableRequest nbits w) :: s.inbox) s

end Sys2Proof.Machine
end

