-- ==== Sys2Proof/Machine/Asm.lean ====
section
/-! DEFINITION. The assembler spelling of a command (30_encoding.md R74). It is notation only: no meaning reads it. -/

namespace Sys2Proof.Machine

/-- A hexadecimal digit, `0` to `F`. -/
def hexDigit (n : Nat) : Char := (Nat.digitChar n).toUpper

/-- R74: a Byte as `0xHH`. -/
def byteText (b : Byte) : String := "0x" ++ String.ofList [hexDigit (b.toNat / 16), hexDigit (b.toNat % 16)]

/-- R74: a Bytes operand as `[0xHH, 0xHH, ...]`, with `[]` for empty. -/
def bytesText (s : Bytes) : String := "[" ++ String.intercalate ", " (s.map byteText) ++ "]"

/-- R74: an operand's spelling; an Int is decimal with an optional leading `-`. -/
def operandText : Operand → String
  | .none => ""
  | .byte b => " " ++ byteText b
  | .int n => " " ++ toString n
  | .bytes s => " " ++ bytesText s

/-- R62: the mnemonic of a command opcode. -/
def mnemonicOfOpcode (opcode : Byte) : Option String :=
  match opcode with
  | 0x10#8 => some "CRC_INIT"
  | 0x11#8 => some "CRC_UPDATE"
  | 0x12#8 => some "CRC_FINAL"
  | 0x13#8 => some "CRC32"
  | 0x20#8 => some "BUILD_CMD_WRITE"
  | 0x21#8 => some "BUILD_CMD_ERASE"
  | 0x22#8 => some "BUILD_DATA"
  | 0x23#8 => some "BUILD_FINISH"
  | 0x24#8 => some "VERIFY_SIZE"
  | 0x25#8 => some "CHECK_FRAME"
  | 0x30#8 => some "INTERPRET"
  | _ => none

/-- R74: `MNEMONIC` for format N, `MNEMONIC operand` otherwise. Only commands have a spelling.

DESIGN CHOICE (log entry 11): R74 gives no spelling to a command whose operand has not its format's kind (an ILLEGAL_COMMAND, R63);
this writes it as its mnemonic with whatever operand it carries. An opcode outside R62's map has no mnemonic, and so no spelling. -/
def asmText : Request → Option String
  | .command opcode operand => (mnemonicOfOpcode opcode).map (· ++ operandText operand)
  | .packet _ => none
  | .reply _ => none

end Sys2Proof.Machine
end

