-- ==== Sys2Proof/Machine/Flags.lean ====
section
/-! DEFINITION. The block has no flags (10_state.md R25): a command's outcome is its Status. This file holds what a status
says (60_exceptions.md R171, R173). -/

namespace Sys2Proof.Machine

/-- R171: the status codes. -/
def Status.code : Status → Byte
  | .ok => 0x00#8
  | .invalidSector _ => 0x01#8
  | .payloadTooLarge _ => 0x02#8
  | .illegalCommand _ => 0x03#8

/-- R171, R181 (90_conflicts.md C4): INVALID_SECTOR and PAYLOAD_TOO_LARGE are the source's ValidationError. -/
def Status.isValidationError : Status → Bool
  | .ok => false
  | .invalidSector _ => true
  | .payloadTooLarge _ => true
  | .illegalCommand _ => false

/-- R75, R120: the shape of a result. A frame has 21 bytes, a valid frame's payload 16. -/
def Result.wellFormed : Result → Bool
  | .word32 _ => true
  | .frame f => f.length == Config.packetLen
  | .bool _ => true
  | .frameCheck (.valid _ payload) => payload.length == Config.payloadLen
  | .frameCheck (.invalid _) => true
  | .outcome _ => true

/-- R171: what a status records meets the condition under which it is raised. -/
def Status.wellFormed : Status → Bool
  | .ok => true
  | .invalidSector n => decide (n < Config.sectorMin ∨ Config.sectorMax < n)
  | .payloadTooLarge n => decide (Config.maxChunk < n)
  | .illegalCommand _ => true

/-- R75, R173: a result only with OK, and each part of its shape. -/
def Completion.wellFormed (c : Completion) : Bool :=
  c.status.wellFormed && (c.status == .ok || c.result == none) && (c.result.map Result.wellFormed).getD true

/-- The invariant of the completion port. -/
def State.completionWellFormed (s : State) : Bool :=
  (s.completion.map Completion.wellFormed).getD true

end Sys2Proof.Machine
end

