-- ==== Sys2Proof/Safety.lean ====
section
/-! DEFINITION. What a host owes the block (70_reset_and_hazards.md R193 to R201, 42_response_decoder.md R154). These are
duties of the host, whose Session is out of scope (00_scope.md R4): no step of the block reads anything in this file. -/

namespace Sys2Proof.Safety

open Sys2Proof.Machine

/-- R193: a byte-serial CRC begins from ACC = 0xFFFFFFFF. -/
abbrev SerialStart (s : State) : Prop := s.acc = Config.crcInit

/-- R154: only Ack lets a host's flow continue. -/
def continues : ReplyOutcome → Bool
  | .ack => true
  | .nack _ => false
  | .unrecognized _ => false
  | .timeout => false

/-- R154, R181: how the source classifies an outcome that ends an operation. Whether `noResponse` is reported as a
transport-level error or a TimeoutError is the host's choice (90_conflicts.md C2). -/
inductive HostError where
  | protocolNack (code : Option Byte)
  | protocolUnrecognized (b : Byte)
  | noResponse
  deriving DecidableEq, Repr

/-- R154: the error of an outcome. -/
def errorOf : ReplyOutcome → Option HostError
  | .ack => none
  | .nack code => some (.protocolNack code)
  | .unrecognized b => some (.protocolUnrecognized b)
  | .timeout => some .noResponse

/-- What a host does on its transport. -/
inductive HostAct where
  /-- R199. -/
  | clearBuffers
  | sendCommand (f : Bytes)
  /-- The data chunk of a number, from 1 (R200). -/
  | sendChunk (k : Nat) (f : Bytes)
  | sendFinish (f : Bytes)
  /-- The reply bytes it has read, and how long it paused before the second of them (R198). -/
  | gotReply (r : Bytes) (codeWait : Nat)
  deriving DecidableEq, Repr

/-- An act at a time in milliseconds. -/
structure TimedAct where
  time : Nat
  act : HostAct
  deriving DecidableEq, Repr

/-- The acts that put a packet on the wire. -/
def HostAct.isSend : HostAct → Bool
  | .clearBuffers => false
  | .sendCommand _ => true
  | .sendChunk _ _ => true
  | .sendFinish _ => true
  | .gotReply _ _ => false

/-- Where a host is in a flow. R195's wait binds the next packet of any flow, so it outlives the flow: `notBefore` is the time
from which a packet may go. -/
inductive HostPhase where
  /-- No flow has begun, or the last one succeeded. -/
  | quiet (notBefore : Nat)
  /-- The buffers are clear and nothing has been sent. -/
  | cleared (notBefore : Nat)
  /-- A packet was sent, and its reply has not been classified. -/
  | awaiting (t : MessageType) (chunk : Nat) (sentAt : Nat)
  /-- A packet was acknowledged, and the next one may go from a time on. -/
  | ready (t : MessageType) (chunk : Nat) (notBefore : Nat)
  /-- The last flow ended in an error. Its last packet drew no Ack, and the wait after an earlier one was over when that packet
  was sent, so no wait is left. -/
  | failed
  deriving DecidableEq, Repr

/-- The message type of a frame that passes the framer's check. -/
def typeOfFrame (f : Bytes) : Option MessageType :=
  match checkFrame f with
  | .valid t _ => some t
  | .invalid _ => none

/-- R195, R196: the wait after an Ack. After a command packet both waits bind, so the longer one does (DEDUCED, log
entry 10). -/
def waitAfter (timing : Config.HostTiming) : MessageType → Nat
  | .cmdWrite => max timing.ackSettle timing.postWrite
  | .cmdErase => max timing.ackSettle timing.postErase
  | .data => timing.ackSettle
  | .finish => timing.ackSettle

/-- R154, R200: an Ack lets the flow go on (or ends it, after FINISH), and anything else ends it. R195: after any packet's Ack,
FINISH's too, the next packet waits. -/
def afterReply (timing : Config.HostTiming) (t : MessageType) (chunk now : Nat) (o : ReplyOutcome) : HostPhase :=
  if continues o then
    if t = .finish then .quiet (now + waitAfter timing t) else .ready t chunk (now + waitAfter timing t)
  else .failed

/-- One act of a host that keeps R195 to R200, or none if the act breaks one. An erase flow sends no data (DEDUCED from
95_test_vectors.md W13, log entry 10).

DESIGN CHOICE (log entry 13): RESPONSE_TIMEOUT bounds the time at which the whole reply is taken, so R198's pause before the code
byte counts inside it; R197 speaks of a byte having arrived and leaves this open.

DESIGN CHOICE (log entry 14): a host may clear its buffers again before the first packet of a flow, and may not clear them and
abandon a flow after an Ack or while a reply is awaited; R199 says neither. -/
def hostStep (timing : Config.HostTiming) (phase : HostPhase) (a : TimedAct) : Option HostPhase :=
  match phase, a.act with
  | .quiet notBefore, .clearBuffers => some (.cleared notBefore)
  | .cleared notBefore, .clearBuffers => some (.cleared notBefore)
  | .failed, .clearBuffers => some (.cleared 0)
  | .cleared notBefore, .sendCommand f =>
    if notBefore ≤ a.time ∧ typeOfFrame f = some .cmdWrite then some (.awaiting .cmdWrite 0 a.time)
    else if notBefore ≤ a.time ∧ typeOfFrame f = some .cmdErase then some (.awaiting .cmdErase 0 a.time)
    else none
  | .ready t k notBefore, .sendChunk k' f =>
    if notBefore ≤ a.time ∧ (t = .cmdWrite ∨ t = .data) ∧ k' = k + 1 ∧ typeOfFrame f = some .data then
      some (.awaiting .data k' a.time)
    else none
  | .ready _ k notBefore, .sendFinish f =>
    if notBefore ≤ a.time ∧ typeOfFrame f = some .finish then some (.awaiting .finish k a.time) else none
  | .awaiting t k sentAt, .gotReply r codeWait =>
    if sentAt ≤ a.time ∧ a.time ≤ sentAt + timing.responseTimeout ∧
        (r.head? = some Config.replyNack → timing.nackCodeDelay ≤ codeWait) then
      some (afterReply timing t k a.time (interpretReply r))
    else none
  | _, _ => none

/-- A host's whole run, from a phase: the phase it ends in, or none if an act breaks a duty. -/
def hostRun (timing : Config.HostTiming) : HostPhase → List TimedAct → Option HostPhase
  | phase, [] => some phase
  | phase, a :: rest =>
    match hostStep timing phase a with
    | some next => hostRun timing next rest
    | none => none

/-- The host's acts keep its duties; before the first of them nothing has been acknowledged. -/
def hostKeepsDuties (timing : Config.HostTiming) (acts : List TimedAct) : Bool :=
  (hostRun timing (.quiet 0) acts).isSome

end Sys2Proof.Safety
end

