-- ==== Sys2Proof/Certificates/Slice0/Obligations.lean ====
section
/-! DEFINITION. The statements for the provers. Each docstring names the rules of spec/ it rests on. The helpers of
Sys2Proof.Certificates write out expected states and bytes from the spec's words, apart from the model's own helpers. -/

namespace Sys2Proof.Certificates

open Sys2Proof.Machine

/-- The state in which a command has completed OK: every field is written out. -/
def done (acc : Word32) (result : Option Result) (s : State) : State :=
  { acc := acc, inbox := s.inbox, completion := some { status := .ok, result := result } }

/-- The state in which a command has failed (R173): no result, ACC kept. -/
def failed (status : Status) (s : State) : State :=
  { acc := s.acc, inbox := s.inbox, completion := some { status := status, result := none } }

/-- A state without its oldest input. -/
def after (rest : List Event) (s : State) : State := { acc := s.acc, inbox := rest, completion := s.completion }

/-- R42: the four bytes of a word, bits 7..0 first, by arithmetic. -/
def leBytes (v : Word32) : Bytes :=
  [BitVec.ofNat 8 (v.toNat % 256), BitVec.ofNat 8 (v.toNat / 256 % 256), BitVec.ofNat 8 (v.toNat / 65536 % 256),
    BitVec.ofNat 8 (v.toNat / 16777216)]

/-- R64, R121: the 21 bytes of a packet with a correct CRC. -/
def frameOf (type : Byte) (payload : Bytes) : Bytes := type :: payload ++ leBytes (crc32 (type :: payload))

/-- R8: `n` zero bytes. -/
def zeroBytes (n : Nat) : Bytes := List.replicate n 0x00#8

/-- R123: the Byte of the same numeric value as a valid sector. -/
def sectorAsByte (n : Int) : Byte := BitVec.ofNat 8 n.toNat

/-- R62: the opcode map's opcodes and formats. -/
def opcodeFormats : List (Byte × Format) :=
  [(0x10#8, .n), (0x11#8, .b), (0x12#8, .n), (0x13#8, .v), (0x20#8, .s), (0x21#8, .s), (0x22#8, .v), (0x23#8, .n),
    (0x24#8, .v), (0x25#8, .v), (0x30#8, .v)]

/-- The request that issues `CRC_UPDATE b`. -/
def updateRequest (b : Byte) : Event := .request (.command 0x11#8 (.byte b))

/-- The request that issues `CRC_FINAL`. -/
def finalRequest : Event := .request (.command 0x12#8 .none)

/-- The byte that an input feeds to ACC, if it is a CRC_UPDATE. -/
def updateByte : Event → Option Byte
  | .request (.command opcode (.byte b)) => if opcode = 0x11#8 then some b else none
  | _ => none

/-- ACC once every input still to come has taken effect: a reset and a CRC_INIT set it (R190, R105), a CRC_UPDATE absorbs its byte
(R106), and nothing else writes it (R21). -/
def finalAcc (s : State) : Word32 :=
  s.inbox.foldl (fun acc e =>
    if e = .reset ∨ e = .request (.command 0x10#8 .none) then 0xFFFFFFFF#32
    else match updateByte e with
      | some b => crcAbsorb acc b
      | none => acc) s.acc

/-- One step of a left-shifting CRC register with polynomial 0x04C11DB7 (R112, general knowledge). -/
def msbStep (a : Word32) : Word32 := if a.msb then (a <<< 1) ^^^ 0x04C11DB7#32 else a <<< 1

/-- A byte, reflected, in the upper eight bits of a word. -/
def reflectedHigh (b : Byte) : Word32 := (b.reverse.setWidth 32) <<< 24

/-- R112: CRC-32/ISO-HDLC by its catalogued parameters: width 32, polynomial 0x04C11DB7, init 0xFFFFFFFF, input and output
reflected, xorout 0xFFFFFFFF (PRESUMED, log entry 12). -/
def crcIsoHdlc (s : Bytes) : Word32 :=
  (s.foldl (fun a b => msbStep^[8] (a ^^^ reflectedHigh b)) 0xFFFFFFFF#32).reverse ^^^ 0xFFFFFFFF#32

end Sys2Proof.Certificates

open Sys2Proof Sys2Proof.Machine Sys2Proof.Certificates

/-! ## Encodings -/

/-- R62 with R60 and R61: every row of the opcode map, with its operand at every value, decodes to its command. -/
def Obligations.OpcodeMapDecodesEveryCommand : Prop :=
  decode (.command 0x10#8 .none) = .ok .crcInit ∧
  (∀ b, decode (.command 0x11#8 (.byte b)) = .ok (.crcUpdate b)) ∧
  decode (.command 0x12#8 .none) = .ok .crcFinal ∧
  (∀ s, decode (.command 0x13#8 (.bytes s)) = .ok (.crc32 s)) ∧
  (∀ n, decode (.command 0x20#8 (.int n)) = .ok (.buildCmdWrite n)) ∧
  (∀ n, decode (.command 0x21#8 (.int n)) = .ok (.buildCmdErase n)) ∧
  (∀ c, decode (.command 0x22#8 (.bytes c)) = .ok (.buildData c)) ∧
  decode (.command 0x23#8 .none) = .ok .buildFinish ∧
  (∀ s, decode (.command 0x24#8 (.bytes s)) = .ok (.verifySize s)) ∧
  (∀ s, decode (.command 0x25#8 (.bytes s)) = .ok (.checkFrame s)) ∧
  (∀ r, decode (.command 0x30#8 (.bytes r)) = .ok (.interpret r))

/-- R60: opcode bits 7..4 name the unit, for every legal opcode and for no other upper half. -/
def Obligations.OpcodeUpperHalfNamesUnit : Prop :=
  (∀ op : Byte, unitOfOpcode op = some .crcEngine ↔ op.toNat / 16 = 1) ∧
  (∀ op : Byte, unitOfOpcode op = some .packetFramer ↔ op.toNat / 16 = 2) ∧
  (∀ op : Byte, unitOfOpcode op = some .responseDecoder ↔ op.toNat / 16 = 3) ∧
  (∀ op : Byte, (functionOfOpcode op).toNat = op.toNat % 16) ∧
  (∀ op f, (op, f) ∈ opcodeFormats → (unitOfOpcode op).isSome)

/-- R63, R171: an opcode outside the map, or an operand of another kind than the map's format, completes with
ILLEGAL_COMMAND, no result, ACC unchanged; 245 opcode bytes are illegal. -/
def Obligations.IllegalCommandCompletesWithoutEffect : Prop :=
  (∀ (op : Byte) (o : Operand) (s : State) (rest : List Event), s.inbox = .request (.command op o) :: rest →
    (op, o.format) ∉ opcodeFormats → step s = .next (failed (.illegalCommand op) (after rest s))) ∧
  ((List.range 256).filter (fun k => !(opcodeFormats.map Prod.fst).contains (BitVec.ofNat 8 k))).length = 245

/-- R64, R65: 21 bytes with a type byte 0x01-0x04 decode to that packet row, with the payload at offsets 1..16 and the CRC
field at 17..20, little-endian. -/
def Obligations.WirePacketFieldsDecodeByOffset : Prop :=
  ∀ (payload : Bytes) (crc : Word32), payload.length = 16 →
    decode (.packet (0x01#8 :: payload ++ leBytes crc)) = .ok (.pktCmdWrite payload crc) ∧
    decode (.packet (0x02#8 :: payload ++ leBytes crc)) = .ok (.pktCmdErase payload crc) ∧
    decode (.packet (0x03#8 :: payload ++ leBytes crc)) = .ok (.pktData payload crc) ∧
    decode (.packet (0x04#8 :: payload ++ leBytes crc)) = .ok (.pktFinish payload crc)

/-- R64, R67: bytes that are not 21 or whose type byte is reserved are no packet row, and only those. -/
def Obligations.PacketDecodesExactlyWhenTypedAndSized : Prop :=
  ∀ f : Bytes, (∃ i, decode (.packet f) = .ok i) ↔
    f.length = 21 ∧ (f.getD 0 0 = 0x01#8 ∨ f.getD 0 0 = 0x02#8 ∨ f.getD 0 0 = 0x03#8 ∨ f.getD 0 0 = 0x04#8)

/-- R68 to R71: the first byte selects a reply's row, and every reply has one. -/
def Obligations.ReplyRowFollowsFirstByte : Prop :=
  decode (.reply []) = .ok .replyNoResponse ∧
  (∀ rest, decode (.reply (0xAA#8 :: rest)) = .ok (.replyAck rest)) ∧
  decode (.reply [0x55#8]) = .ok (.replyNack none []) ∧
  (∀ c rest, decode (.reply (0x55#8 :: c :: rest)) = .ok (.replyNack (some c) rest)) ∧
  (∀ b rest, b ≠ 0xAA#8 → b ≠ 0x55#8 → decode (.reply (b :: rest)) = .ok (.replyUnrecognized b rest))

/-- A few words written out from the spec's encodings (R62, R64, R68; frames of 95_test_vectors.md) decode right. -/
def Obligations.WrittenOutWordsDecode : Prop :=
  decodeTableWord 8 0x10 = some .crcInit ∧
  decodeTableWord 16 0x3111 = some (.crcUpdate 0x31#8) ∧
  decodeTableWord 8 0x23 = some .buildFinish ∧
  decodeTableWord 32 0x63626113 = some (.crc32 [0x61#8, 0x62#8, 0x63#8]) ∧
  decodeTableWord 8 0x99 = none ∧
  decode (.packet [0x01, 0x03, 0, 0, 0, 0, 0, 0, 0, 0, 0, 0, 0, 0, 0, 0, 0, 0x0C, 0x8E, 0x81, 0x67]) =
    .ok (.pktCmdWrite [0x03, 0, 0, 0, 0, 0, 0, 0, 0, 0, 0, 0, 0, 0, 0, 0] 0x67818E0C#32) ∧
  decode (.reply [0x55, 0x04]) = .ok (.replyNack (some 0x04) [])

/-- Decoding an encoded well-formed instruction gives it back (R60 to R71), for every row and every operand value. -/
def Obligations.DecodeOfEncodeIsIdentity : Prop :=
  ∀ i : Instr, i.wellFormed = true → decode (encode i) = .ok i

/-- Each request that decodes has one meaning: it is the encoding of what it decodes to, which is well-formed. -/
def Obligations.EncodeOfDecodeIsIdentity : Prop :=
  ∀ (r : Request) (i : Instr), decode r = .ok i → i.wellFormed = true ∧ encode i = r

/-! ## Steps -/

/-- R20, R51: when the oldest input's request decodes, the step runs that instruction on the state without that input. -/
def Obligations.StepRunsTheDecodedInstruction : Prop :=
  ∀ (s : State) (r : Request) (rest : List Event) (i : Instr),
    s.inbox = .request r :: rest → decode r = .ok i → step s = exec i (after rest s)

/-- The word that withFetchWord places is the very next instruction that runs (log entry 6). -/
def Obligations.FetchWordRunsNext : Prop :=
  ∀ (s : State) (nbits w : Nat) (i : Instr), decodeTableWord nbits w = some i → step (s.withFetchWord nbits w) = exec i s

/-- R20, R50: with no input the block waits; nothing of it changes. That this is a next state which completes nothing is the
model's choice (log entry 3). -/
def Obligations.StepWithoutInputLeavesAcc : Prop :=
  ∀ s : State, s.inbox = [] → ∃ t, step s = .next t ∧ t.acc = s.acc ∧ t.inbox = [] ∧ t.completion = none

/-- R190, R22: reset sets ACC to 0xFFFFFFFF between commands, and after it the next input is taken as always. That the reset
step hands back no completion is the model's choice (log entry 4). -/
def Obligations.ResetInputRestoresAcc : Prop :=
  State.reset.acc = 0xFFFFFFFF#32 ∧
  ∀ (s : State) (rest : List Event), s.inbox = .reset :: rest →
    step s = .next { acc := 0xFFFFFFFF#32, inbox := rest, completion := none }

/-- R170: every command completes, with exactly one status. The rest is the model's: that a step with no input answers a next state
(log entry 3), that nothing can stop the machine (DEDUCED, log entry 8), and that a packet or a reply handed over is a request that
completes (log entry 5). -/
def Obligations.EveryStepAnswersAndEveryRequestCompletes : Prop :=
  ∀ s : State, ∃ t, step s = .next t ∧
    ∀ r rest, s.inbox = .request r :: rest → ∃ c, t.completion = some c

/-- R51: one step takes exactly the oldest input, in issue order. -/
def Obligations.StepTakesOldestInputOnly : Prop :=
  ∀ s t : State, step s = .next t → t.inbox = s.inbox.tail

/-- R173: a step that completes a command with an error writes no state and returns no result, and the next step goes as if
the failed command had not been issued. -/
def Obligations.FailedCommandWritesNothing : Prop :=
  ∀ (s t : State) (c : Completion), step s = .next t → t.completion = some c → c.status ≠ .ok →
    c.result = none ∧ t.acc = s.acc ∧ step t = step (after t.inbox s)

/-- R171: the status codes, and exactly when each error is raised, with what it records. That every command completes is R170; that
the packet and reply rows complete at all, and so with no error status, is the model's choice (log entry 5). -/
def Obligations.StatusesAreRaisedExactlyAsTabled : Prop :=
  Status.ok.code = 0x00#8 ∧ (∀ n, (Status.invalidSector n).code = 0x01#8) ∧
  (∀ k, (Status.payloadTooLarge k).code = 0x02#8) ∧ (∀ op, (Status.illegalCommand op).code = 0x03#8) ∧
  (∀ (i : Instr) (s : State), ∃ t c, exec i s = .next t ∧ t.completion = some c ∧
    (∀ n, c.status = .invalidSector n ↔ (i = .buildCmdWrite n ∨ i = .buildCmdErase n) ∧ (n < 0 ∨ 255 < n)) ∧
    (∀ k, c.status = .payloadTooLarge k ↔ ∃ chunk, i = .buildData chunk ∧ k = chunk.length ∧ 16 < k) ∧
    (∀ op, c.status ≠ .illegalCommand op)) ∧
  (∀ (s : State) (r : Request) (rest : List Event) (op : Byte), s.inbox = .request r :: rest →
    ((∃ t c, step s = .next t ∧ t.completion = some c ∧ c.status = .illegalCommand op) ↔
      ∃ o, r = .command op o ∧ (op, o.format) ∉ opcodeFormats))

/-- R172 (which the spec marks as derived from the commands' rules): these commands, and the packet and reply rows (log entry 5), complete OK for every operand. -/
def Obligations.CommandsWithoutErrorsCompleteOk : Prop :=
  ∀ (i : Instr) (s : State), (∀ n, i ≠ .buildCmdWrite n) → (∀ n, i ≠ .buildCmdErase n) → (∀ c, i ≠ .buildData c) →
    ∃ t r, exec i s = .next t ∧ t.completion = some { status := .ok, result := r }

/-- R21, R29: only CRC_INIT and CRC_UPDATE write ACC, and no other row changes anything but the completion. -/
def Obligations.OtherInstructionsLeaveAccAndInputs : Prop :=
  ∀ (i : Instr) (s t : State), i ≠ .crcInit → (∀ b, i ≠ .crcUpdate b) → exec i s = .next t →
    t.acc = s.acc ∧ t.inbox = s.inbox

/-- The frame of the two that write ACC (R105, R106): the inputs stay, and they return no result. -/
def Obligations.AccWritersLeaveInputs : Prop :=
  ∀ (i : Instr) (s t : State), (i = .crcInit ∨ ∃ b, i = .crcUpdate b) → exec i s = .next t →
    t.inbox = s.inbox ∧ t.completion = some { status := .ok, result := none }

/-- R21, over whole steps: ACC changes only by a reset, a CRC_INIT or a CRC_UPDATE at the head of the inputs. -/
def Obligations.AccChangesOnlyByItsWriters : Prop :=
  ∀ s t : State, step s = .next t → t.acc ≠ s.acc →
    ∃ e rest, s.inbox = e :: rest ∧
      (e = .reset ∨ e = .request (.command 0x10#8 .none) ∨ ∃ b, e = updateRequest b)

/-- R9, R21: nothing but ACC and the operands decides what a command returns and leaves in ACC, only what CRC_FINAL returns depends on
ACC, and what CRC_INIT leaves in ACC does not. -/
def Obligations.ReturnDependsOnOperandsAndAccAndOnlyFinalReturnsAcc : Prop :=
  ∀ (i : Instr) (s u : State), ∃ t v, exec i s = .next t ∧ exec i u = .next v ∧
    (i ≠ .crcFinal → t.completion = v.completion) ∧
    (s.acc = u.acc → t.completion = v.completion ∧ t.acc = v.acc) ∧
    (i = .crcInit → t.acc = v.acc)

/-- R49: issuing a command again gives the same state and completion, but for CRC_UPDATE, which advances ACC. -/
def Obligations.AllButUpdateAreIdempotent : Prop :=
  (∀ (i : Instr) (s t : State), (∀ b, i ≠ .crcUpdate b) → exec i s = .next t → exec i t = .next t) ∧
  (∃ (b : Byte) (s t u : State), exec (.crcUpdate b) s = .next t ∧ exec (.crcUpdate b) t = .next u ∧ u.acc ≠ t.acc)

/-- The completion that reset holds has R75's shape. -/
def Obligations.ResetCompletionHasItsShape : Prop := State.reset.completionWellFormed = true

/-- R75, R120, R171: every step keeps the completion's shape: a result only with OK, a frame of 21 bytes, a valid verdict with 16
payload bytes, and an error only with information that meets its condition. -/
def Obligations.StepKeepsCompletionShape : Prop :=
  ∀ s t : State, s.completionWellFormed = true → step s = .next t → t.completionWellFormed = true

/-- R21, R51, R190: each step keeps what ACC will be once all inputs have taken effect, with resets, CRC_INITs, failing and illegal
commands, packets and replies (log entries 4 and 5) among them. -/
def Obligations.StepKeepsFinalAcc : Prop :=
  ∀ (s t : State) (v : Word32), finalAcc s = v → step s = .next t → finalAcc t = v

/-! ## CRC-32 engine -/

/-- R101: one iteration. The last clause, bit 31 of its result, is the spec's own derivation from this rule and R5. -/
def Obligations.CrcBitStepShiftsAndFolds : Prop :=
  (∀ a : Word32, a.getLsbD 0 = true → crcBitStep a = (a >>> 1) ^^^ 0xEDB88320#32) ∧
  (∀ a : Word32, a.getLsbD 0 = false → crcBitStep a = a >>> 1) ∧
  (∀ a : Word32, (crcBitStep a).getLsbD 31 = a.getLsbD 0)

/-- R102, R103, R104: absorbing is eight iterations after the byte is XORed into the low byte, bits 31..8 untouched by that XOR;
finalizing inverts; crc32 absorbs in index order from 0xFFFFFFFF. -/
def Obligations.CrcAbsorbAndFinalizeAsWritten : Prop :=
  (∀ (a : Word32) (b : Byte), crcAbsorb a b = crcBitStep^[8] (a ^^^ b.setWidth 32)) ∧
  (∀ (a : Word32) (b : Byte), (a ^^^ zext32 b).extractLsb' 8 24 = a.extractLsb' 8 24) ∧
  (∀ a : Word32, crcFinalize a = ~~~a ∧ crcFinalize a = a ^^^ 0xFFFFFFFF#32) ∧
  (∀ s : Bytes, crc32 s = ~~~(s.foldl crcAbsorb 0xFFFFFFFF#32))

/-- R43 (which the spec marks as derived from R102): the engine consumes a byte least significant bit first: bit `i` meets ACC's low bit at iteration `i`. -/
def Obligations.ByteEntersLeastSignificantBitFirst : Prop :=
  ∀ (a : Word32) (b : Byte),
    crcAbsorb a b =
      (List.range 8).foldl (fun t i => crcBitStep (t ^^^ (if b.getLsbD i then 1#32 else 0#32))) a

/-- R105. -/
def Obligations.CrcInitSetsAcc : Prop :=
  decode (.command 0x10#8 .none) = .ok .crcInit ∧
  (∀ s : State, exec .crcInit s = .next (done 0xFFFFFFFF#32 none s)) ∧
  (∀ s t : State, exec .crcInit s = .next t → exec .crcInit t = .next t)

/-- R106, with its corner case. -/
def Obligations.CrcUpdateAbsorbsOneByte : Prop :=
  (∀ b, decode (.command 0x11#8 (.byte b)) = .ok (.crcUpdate b)) ∧
  (∀ (b : Byte) (s : State), exec (.crcUpdate b) s = .next (done (crcAbsorb s.acc b) none s)) ∧
  (∀ o : Operand, o.format ≠ .b → decode (.command 0x11#8 o) = .error (.wrongOperandKind 0x11#8)) ∧
  crcAbsorb 0xFFFFFFFF#32 0x00#8 = 0x2DFD1072#32

/-- R107, with its corner cases and example. -/
def Obligations.CrcFinalReadsInvertedAcc : Prop :=
  decode (.command 0x12#8 .none) = .ok .crcFinal ∧
  (∀ s : State, exec .crcFinal s = .next (done s.acc (some (.word32 (~~~s.acc))) s)) ∧
  (∀ s t : State, exec .crcFinal s = .next t → exec .crcFinal t = .next t) ∧
  (∀ s : State, s.acc = 0xFFFFFFFF#32 → exec .crcFinal s = .next (done s.acc (some (.word32 0x00000000#32)) s)) ∧
  ~~~(0x5AFA20E4#32) = 0xA505DF1B#32 ∧ crc32 [0x01#8] = 0xA505DF1B#32

/-- R108, R110: for every sequence, and the empty one's value. -/
def Obligations.CrcOneShotLeavesAcc : Prop :=
  (∀ bs, decode (.command 0x13#8 (.bytes bs)) = .ok (.crc32 bs)) ∧
  (∀ (bs : Bytes) (s : State), exec (.crc32 bs) s = .next (done s.acc (some (.word32 (crc32 bs))) s)) ∧
  crc32 [] = 0x00000000#32

/-- The spec's computed examples (40_crc_engine.md, 41_packet_framer.md and 95_test_vectors.md mark them as derived from the rules):
CRC values and whole frames. -/
def Obligations.ComputedExamplesComeOut : Prop :=
  crcAbsorb 0xFFFFFFFF#32 0x01#8 = 0x5AFA20E4#32 ∧
  crc32 [0x31, 0x32, 0x33, 0x34, 0x35, 0x36, 0x37, 0x38, 0x39] = 0xCBF43926#32 ∧
  crc32 (zeroBytes 17) = 0xC9EFF1BD#32 ∧
  (∀ s : State, exec (.buildCmdWrite 3) s = .next (done s.acc (some (.frame
    [0x01, 0x03, 0, 0, 0, 0, 0, 0, 0, 0, 0, 0, 0, 0, 0, 0, 0, 0x0C, 0x8E, 0x81, 0x67])) s)) ∧
  (∀ s : State, exec (.buildCmdErase 7) s = .next (done s.acc (some (.frame
    [0x02, 0x07, 0, 0, 0, 0, 0, 0, 0, 0, 0, 0, 0, 0, 0, 0, 0, 0x0F, 0x99, 0x2A, 0xE0])) s)) ∧
  (∀ s : State, exec (.buildData [0x20, 0x21]) s = .next (done s.acc (some (.frame
    [0x03, 0x20, 0x21, 0, 0, 0, 0, 0, 0, 0, 0, 0, 0, 0, 0, 0, 0, 0x32, 0x34, 0x74, 0xBC])) s)) ∧
  (∀ s : State, exec .buildFinish s = .next (done s.acc (some (.frame
    [0x04, 0, 0, 0, 0, 0, 0, 0, 0, 0, 0, 0, 0, 0, 0, 0, 0, 0x72, 0xD6, 0xE7, 0xBA])) s))

/-- 40_crc_engine.md's first law (R109, which the spec marks as derived from R104 to R107): a byte-serial sequence from ACC =
0xFFFFFFFF returns what CRC32 returns for its bytes. -/
def Obligations.SerialCrcEqualsOneShotCrc : Prop :=
  ∀ (bs : Bytes) (s : State) (rest : List Event), s.acc = 0xFFFFFFFF#32 →
    s.inbox = bs.map updateRequest ++ finalRequest :: rest →
    ∃ t : State, Host.Core.run Sys2Proof.core (bs.length + 1) s = .next t ∧
      t = done (bs.foldl crcAbsorb 0xFFFFFFFF#32) (some (.word32 (crc32 bs))) (after rest s)

/-- R193 (which the spec marks as derived from R104, R106, R107): without CRC_INIT between them, a second sequence is folded into
the first. -/
def Obligations.SecondSerialCrcContinuesFirst : Prop :=
  ∀ (bs cs : Bytes) (s : State) (rest : List Event), s.acc = 0xFFFFFFFF#32 →
    s.inbox = bs.map updateRequest ++ finalRequest :: (cs.map updateRequest ++ finalRequest :: rest) →
    ∃ t : State, Host.Core.run Sys2Proof.core (bs.length + cs.length + 2) s = .next t ∧ t.inbox = rest ∧
      t.completion = some { status := .ok, result := some (.word32 (crc32 (bs ++ cs))) }

/-- R194 (which the spec marks as derived from R21 and R29), with R51 and R173: whatever else is issued between them (one-shot commands, packets, replies, failing and illegal commands),
ACC ends as the CRC_UPDATE bytes in order make it, if neither a reset nor a CRC_INIT comes in. -/
def Obligations.InterleavedCommandsLeaveSerialCrc : Prop :=
  ∀ s : State, (∀ e ∈ s.inbox, e ≠ .reset ∧ e ≠ .request (.command 0x10#8 .none)) →
    ∃ t : State, Host.Core.run Sys2Proof.core s.inbox.length s = .next t ∧ t.inbox = [] ∧
      t.acc = (s.inbox.filterMap updateByte).foldl crcAbsorb s.acc

/-- R112: the engine computes CRC-32/ISO-HDLC. The catalogue's parameters are general knowledge (PRESUMED, log entry 12); no rule
of the block depends on this. -/
def Obligations.CrcEqualsCataloguedCrc32 : Prop := ∀ s : Bytes, crc32 s = crcIsoHdlc s

/-! ## Packet framer -/

/-- R42: little-endian both ways, and so in every packet's CRC field. -/
def Obligations.CrcFieldIsLittleEndian : Prop :=
  (∀ (t : MessageType) (payload : Bytes) (crc : Word32), payload.length = 16 →
    (packetBytes t payload crc).drop 17 = leBytes crc) ∧
  (∀ v : Word32, le32 v = leBytes v) ∧ (∀ v : Word32, fromLe32 (leBytes v) = v) ∧
  (∀ s : Bytes, s.length = 4 → le32 (fromLe32 s) = s)

/-- R126: a frame for every legal sector, INVALID_SECTOR for every other. -/
def Obligations.BuildCmdWriteBuildsOrRejects : Prop :=
  (∀ n, decode (.command 0x20#8 (.int n)) = .ok (.buildCmdWrite n)) ∧
  (∀ (n : Int) (s : State), 0 ≤ n → n ≤ 255 → exec (.buildCmdWrite n) s =
    .next (done s.acc (some (.frame (frameOf 0x01#8 (sectorAsByte n :: zeroBytes 15)))) s)) ∧
  (∀ (n : Int) (s : State), (n < 0 ∨ 255 < n) → exec (.buildCmdWrite n) s = .next (failed (.invalidSector n) s))

/-- R127, with its corner case. -/
def Obligations.BuildCmdEraseBuildsOrRejects : Prop :=
  (∀ n, decode (.command 0x21#8 (.int n)) = .ok (.buildCmdErase n)) ∧
  (∀ (n : Int) (s : State), 0 ≤ n → n ≤ 255 → exec (.buildCmdErase n) s =
    .next (done s.acc (some (.frame (frameOf 0x02#8 (sectorAsByte n :: zeroBytes 15)))) s)) ∧
  (∀ (n : Int) (s : State), (n < 0 ∨ 255 < n) → exec (.buildCmdErase n) s = .next (failed (.invalidSector n) s)) ∧
  (∀ n : Int, 0 ≤ n → n ≤ 255 →
    ((frameOf 0x01#8 (sectorAsByte n :: zeroBytes 15)).drop 1).take 16 =
      ((frameOf 0x02#8 (sectorAsByte n :: zeroBytes 15)).drop 1).take 16 ∧
    (frameOf 0x01#8 (sectorAsByte n :: zeroBytes 15)).drop 17 ≠ (frameOf 0x02#8 (sectorAsByte n :: zeroBytes 15)).drop 17)

/-- R128, with its corner cases. -/
def Obligations.BuildDataPadsOrRejects : Prop :=
  (∀ c, decode (.command 0x22#8 (.bytes c)) = .ok (.buildData c)) ∧
  (∀ (c : Bytes) (s : State), c.length ≤ 16 → exec (.buildData c) s =
    .next (done s.acc (some (.frame (frameOf 0x03#8 (c ++ zeroBytes (16 - c.length))))) s)) ∧
  (∀ (c : Bytes) (s : State), 16 < c.length → exec (.buildData c) s = .next (failed (.payloadTooLarge c.length) s)) ∧
  (∀ s : State, exec (.buildData []) s = exec (.buildData [0x00]) s)

/-- R73 (its third point, which the spec marks as derived from R66 and R128): a DATA frame carries no chunk length: trailing zeros that fit give the same frame. -/
def Obligations.DataFrameHidesTrailingZeros : Prop :=
  ∀ (c : Bytes) (k : Nat) (s : State), c.length + k ≤ 16 → exec (.buildData (c ++ zeroBytes k)) s = exec (.buildData c) s

/-- R129: one constant frame. -/
def Obligations.BuildFinishIsConstant : Prop :=
  decode (.command 0x23#8 .none) = .ok .buildFinish ∧
  ∀ s : State, exec .buildFinish s = .next (done s.acc (some (.frame (frameOf 0x04#8 (zeroBytes 16)))) s)

/-- R130. -/
def Obligations.VerifySizeChecksLengthOnly : Prop :=
  (∀ f, decode (.command 0x24#8 (.bytes f)) = .ok (.verifySize f)) ∧
  (∀ (f : Bytes) (s : State), f.length = 21 → exec (.verifySize f) s = .next (done s.acc (some (.bool true)) s)) ∧
  (∀ (f : Bytes) (s : State), f.length ≠ 21 → exec (.verifySize f) s = .next (done s.acc (some (.bool false)) s))

/-- R131: length, then CRC, then type, for every sequence; with its examples. -/
def Obligations.CheckFrameVerdictInOrder : Prop :=
  (∀ f, decode (.command 0x25#8 (.bytes f)) = .ok (.checkFrame f)) ∧
  (∀ (f : Bytes) (s : State), f.length ≠ 21 →
    exec (.checkFrame f) s = .next (done s.acc (some (.frameCheck (.invalid .badLength))) s)) ∧
  (∀ (f : Bytes) (s : State), f.length = 21 → f.drop 17 ≠ leBytes (crc32 (f.take 17)) →
    exec (.checkFrame f) s = .next (done s.acc (some (.frameCheck (.invalid .badCrc))) s)) ∧
  (∀ (f : Bytes) (s : State) (b : Byte) (rest : Bytes), f.length = 21 → f.drop 17 = leBytes (crc32 (f.take 17)) →
    f = b :: rest →
    exec (.checkFrame f) s = .next (done s.acc (some (.frameCheck
      (if b = 0x01#8 then .valid .cmdWrite (rest.take 16)
       else if b = 0x02#8 then .valid .cmdErase (rest.take 16)
       else if b = 0x03#8 then .valid .data (rest.take 16)
       else if b = 0x04#8 then .valid .finish (rest.take 16)
       else .invalid .badType))) s)) ∧
  checkFrame [0x04, 0, 0, 0, 0, 0, 0, 0, 0, 0, 0, 0, 0, 0, 0, 0, 0, 0x72, 0xD6, 0xE7, 0xBA] =
    .valid .finish (zeroBytes 16) ∧
  checkFrame [0x04, 0, 0, 0, 0, 0, 0, 0, 0, 0, 0, 0, 0, 0, 0, 0, 0, 0x73, 0xD6, 0xE7, 0xBA] = .invalid .badCrc

/-- R131 with R121: the frames that pass are exactly the sealed ones. -/
def Obligations.CheckFrameAcceptsExactlySealedFrames : Prop :=
  ∀ (f : Bytes) (t : MessageType) (payload : Bytes),
    checkFrame f = .valid t payload ↔ payload.length = 16 ∧ f = frameOf (typeByte t) payload

/-- R132 (which the spec marks as derived from R120, R121, R126 to R131): every built frame passes the check with its own type and payload, and the size check. -/
def Obligations.BuiltFramesPassTheCheck : Prop :=
  (∀ (n : Int) (s : State), 0 ≤ n → n ≤ 255 → ∃ t f, exec (.buildCmdWrite n) s = .next t ∧
    t = done s.acc (some (.frame f)) s ∧
    exec (.checkFrame f) t = .next (done s.acc (some (.frameCheck (.valid .cmdWrite (sectorAsByte n :: zeroBytes 15)))) t) ∧
    exec (.verifySize f) t = .next (done s.acc (some (.bool true)) t)) ∧
  (∀ (n : Int) (s : State), 0 ≤ n → n ≤ 255 → ∃ t f, exec (.buildCmdErase n) s = .next t ∧
    t = done s.acc (some (.frame f)) s ∧
    exec (.checkFrame f) t = .next (done s.acc (some (.frameCheck (.valid .cmdErase (sectorAsByte n :: zeroBytes 15)))) t) ∧
    exec (.verifySize f) t = .next (done s.acc (some (.bool true)) t)) ∧
  (∀ (c : Bytes) (s : State), c.length ≤ 16 → ∃ t f, exec (.buildData c) s = .next t ∧
    t = done s.acc (some (.frame f)) s ∧
    exec (.checkFrame f) t =
      .next (done s.acc (some (.frameCheck (.valid .data (c ++ zeroBytes (16 - c.length))))) t) ∧
    exec (.verifySize f) t = .next (done s.acc (some (.bool true)) t)) ∧
  (∀ s : State, ∃ t f, exec .buildFinish s = .next t ∧
    t = done s.acc (some (.frame f)) s ∧
    exec (.checkFrame f) t = .next (done s.acc (some (.frameCheck (.valid .finish (zeroBytes 16)))) t) ∧
    exec (.verifySize f) t = .next (done s.acc (some (.bool true)) t))

/-- R120, R65, R67: every frame that any step returns has 21 bytes and a type byte 0x01-0x04. -/
def Obligations.EveryFrameHasLengthAndKnownType : Prop :=
  ∀ (s t : State) (c : Completion) (f : Bytes), step s = .next t → t.completion = some c → c.result = some (.frame f) →
    f.length = 21 ∧ (f.getD 0 0 = 0x01#8 ∨ f.getD 0 0 = 0x02#8 ∨ f.getD 0 0 = 0x03#8 ∨ f.getD 0 0 = 0x04#8)

/-- R131 with R101 to R104: changing any one byte of a frame that passes the check makes it BadCrc. -/
def Obligations.OneChangedByteIsDetected : Prop :=
  ∀ (f : Bytes) (t : MessageType) (payload : Bytes) (k : Nat) (b : Byte), checkFrame f = .valid t payload → k < 21 →
    b ≠ f.getD k 0 → checkFrame (f.set k b) = .invalid .badCrc

/-- The wire packet rows (R64 to R66, R131; that a packet is handed to the check under its own row is the model's choice, log
entry 5). -/
def Obligations.WirePacketRowsCheckTheirCrc : Prop :=
  ∀ (payload : Bytes) (crc : Word32) (s : State), payload.length = 16 →
    exec (.pktCmdWrite payload crc) s = .next (done s.acc (some (.frameCheck
      (if crc = crc32 (0x01#8 :: payload) then .valid .cmdWrite payload else .invalid .badCrc))) s) ∧
    exec (.pktCmdErase payload crc) s = .next (done s.acc (some (.frameCheck
      (if crc = crc32 (0x02#8 :: payload) then .valid .cmdErase payload else .invalid .badCrc))) s) ∧
    exec (.pktData payload crc) s = .next (done s.acc (some (.frameCheck
      (if crc = crc32 (0x03#8 :: payload) then .valid .data payload else .invalid .badCrc))) s) ∧
    exec (.pktFinish payload crc) s = .next (done s.acc (some (.frameCheck
      (if crc = crc32 (0x04#8 :: payload) then .valid .finish payload else .invalid .badCrc))) s)

/-! ## Response decoder -/

/-- R152 and R156, with every corner case. -/
def Obligations.InterpretClassifiesByFirstByte : Prop :=
  (∀ r, decode (.command 0x30#8 (.bytes r)) = .ok (.interpret r)) ∧
  (∀ s : State, exec (.interpret []) s = .next (done s.acc (some (.outcome .timeout)) s)) ∧
  (∀ (rest : Bytes) (s : State),
    exec (.interpret (0xAA#8 :: rest)) s = .next (done s.acc (some (.outcome .ack)) s)) ∧
  (∀ s : State, exec (.interpret [0x55#8]) s = .next (done s.acc (some (.outcome (.nack none))) s)) ∧
  (∀ (c : Byte) (rest : Bytes) (s : State),
    exec (.interpret (0x55#8 :: c :: rest)) s = .next (done s.acc (some (.outcome (.nack (some c)))) s)) ∧
  (∀ (b : Byte) (rest : Bytes) (s : State), b ≠ 0xAA#8 → b ≠ 0x55#8 →
    exec (.interpret (b :: rest)) s = .next (done s.acc (some (.outcome (.unrecognized b))) s)) ∧
  nackReason 0x00#8 = .unknown 0x00#8 ∧ nackReason 0x04#8 = .invalidCommandData

/-- R151: the taxonomy, over every code. -/
def Obligations.NackTaxonomyIsFixed : Prop :=
  nackReason 1#8 = .unsupportedMessageType ∧ nackReason 2#8 = .crcCheckFailed ∧ nackReason 3#8 = .messageQueueFull ∧
  nackReason 4#8 = .invalidCommandData ∧ nackReason 5#8 = .orderingViolation ∧
  (∀ c : Byte, (c = 0#8 ∨ 6 ≤ c.toNat) → nackReason c = .unknown c)

/-- The reply rows (R68 to R71, R152; that a reply is handed to the decoder under its own row is the model's choice, log entry
5). -/
def Obligations.ReplyRowsGiveTheirOutcome : Prop :=
  (∀ (rest : Bytes) (s : State), exec (.replyAck rest) s = .next (done s.acc (some (.outcome .ack)) s)) ∧
  (∀ s : State, exec (.replyNack none []) s = .next (done s.acc (some (.outcome (.nack none))) s)) ∧
  (∀ (c : Byte) (rest : Bytes) (s : State),
    exec (.replyNack (some c) rest) s = .next (done s.acc (some (.outcome (.nack (some c)))) s)) ∧
  (∀ (b : Byte) (rest : Bytes) (s : State), b ≠ 0xAA#8 → b ≠ 0x55#8 →
    exec (.replyUnrecognized b rest) s = .next (done s.acc (some (.outcome (.unrecognized b))) s)) ∧
  (∀ s : State, exec .replyNoResponse s = .next (done s.acc (some (.outcome .timeout)) s))

/-- A packet or a reply handed over under its own row, or as bytes of no row, does exactly what CHECK_FRAME or INTERPRET of those
bytes does (R131, R152; log entry 5). -/
def Obligations.DataRowsAgreeWithTheirCommands : Prop :=
  (∀ (f : Bytes) (s : State), perform (.packet f) s = perform (.command 0x25#8 (.bytes f)) s) ∧
  (∀ (r : Bytes) (s : State), perform (.reply r) s = perform (.command 0x30#8 (.bytes r)) s)

/-- R74: examples of the spelling, at least one command of each format, and of a written Bytes operand's value. Capital digits and
the blank after a comma are the model's choice (log entry 11). -/
def Obligations.AssemblerSpellingExamplesOfEachFormat : Prop :=
  asmText (.command 0x10#8 .none) = some "CRC_INIT" ∧
  asmText (.command 0x11#8 (.byte 0x3A#8)) = some "CRC_UPDATE 0x3A" ∧
  asmText (.command 0x20#8 (.int (-1))) = some "BUILD_CMD_WRITE -1" ∧
  asmText (.command 0x22#8 (.bytes [])) = some "BUILD_DATA []" ∧
  asmText (.command 0x30#8 (.bytes [0x55, 0x04])) = some "INTERPRET [0x55, 0x04]" ∧
  (BytesText.append (.ascii "hello") (.zeros 2)).value = [0x68, 0x65, 0x6C, 0x6C, 0x6F, 0x00, 0x00]

/-! ## Duties of the host -/

/-- R154, R181: only an Ack lets the flow go on, and every other outcome has its error. -/
def Obligations.OnlyAckContinuesAFlow : Prop :=
  (∀ o, Safety.continues o = true ↔ o = .ack) ∧ (∀ o, Safety.errorOf o = none ↔ o = .ack) ∧
  (∀ code, Safety.errorOf (.nack code) = some (.protocolNack code)) ∧
  (∀ b, Safety.errorOf (.unrecognized b) = some (.protocolUnrecognized b)) ∧
  Safety.errorOf .timeout = some .noResponse

/-- R200: in a run that keeps the duties, no packet is sent before the reply to the last one is taken, and after a reply that is no
Ack none is sent before the buffers are cleared for a new flow (R199). The model's own is that the act after a sent packet takes
its reply and is no clearing of the buffers either: the spec is silent there, and the monitor forbids it (DESIGN CHOICE, log entry
14). A step that the host treats as Timeout directly (R197) stands as the taking of the empty reply (log entry 13). The monitor's
other readings are log entry 10. -/
def Obligations.HostSendsNextOnlyAfterAck : Prop :=
  ∀ (timing : Config.HostTiming) (before rest : List Safety.TimedAct) (a b : Safety.TimedAct),
    Safety.hostKeepsDuties timing (before ++ a :: b :: rest) = true →
    ((∃ f, a.act = .sendCommand f ∨ (∃ k, a.act = .sendChunk k f) ∨ a.act = .sendFinish f) → ∃ r w, b.act = .gotReply r w) ∧
    (∀ r w, a.act = .gotReply r w → interpretReply r ≠ .ack → b.act = .clearBuffers)

/-- R195, R196: in a run that keeps the duties, after a packet's Ack (`a`, the reply to the packet that `c` sent) the next packet
(`b`), of the same flow or a later one, goes no earlier than ACK_SETTLE after it, and after a command packet's Ack no earlier than
the post-command delay either. The monitor's own readings of these duties are log entries 10, 13 and 14. -/
def Obligations.HostWaitsAfterEveryAck : Prop :=
  ∀ (timing : Config.HostTiming) (before between rest : List Safety.TimedAct) (c a b : Safety.TimedAct) (r : Bytes) (w : Nat),
    Safety.hostKeepsDuties timing (before ++ c :: a :: (between ++ b :: rest)) = true →
    c.act.isSend = true → a.act = .gotReply r w → interpretReply r = .ack →
    (∀ m ∈ between, m.act.isSend = false) → b.act.isSend = true →
    a.time + timing.ackSettle ≤ b.time ∧
    (∀ f, c.act = .sendCommand f → Safety.typeOfFrame f = some .cmdErase → a.time + timing.postErase ≤ b.time) ∧
    (∀ f, c.act = .sendCommand f → Safety.typeOfFrame f = some .cmdWrite → a.time + timing.postWrite ≤ b.time)
end

