-- ==== Sys2Proof/Laws/Crc.lean ====
section
/-! SUPPORT. The engine's functions, by their defining equations and their bits. -/

namespace Sys2Proof.Machine

theorem crcBitStep_low {a : Word32} (h : a.getLsbD 0 = true) : crcBitStep a = (a >>> 1) ^^^ Config.crcPoly :=
  if_pos h

theorem crcBitStep_high {a : Word32} (h : a.getLsbD 0 = false) : crcBitStep a = a >>> 1 :=
  if_neg (by rw [h]; exact Bool.false_ne_true)

/-- Each bit of an iteration's result (R101): the bit above it, and the polynomial's bit if the tested bit is set. -/
theorem crcBitStep_getLsbD (a : Word32) (i : Nat) :
    (crcBitStep a).getLsbD i = (a.getLsbD (i + 1) ^^ (a.getLsbD 0 && Config.crcPoly.getLsbD i)) := by
  cases h : a.getLsbD 0 with
  | true => rw [crcBitStep_low h, BitVec.getLsbD_xor, BitVec.getLsbD_ushiftRight, Nat.add_comm 1 i, Bool.true_and]
  | false => rw [crcBitStep_high h, BitVec.getLsbD_ushiftRight, Nat.add_comm 1 i, Bool.false_and, Bool.xor_false]

theorem crcBitSteps_zero (a : Word32) : crcBitSteps 0 a = a := rfl

theorem crcBitSteps_succ (n : Nat) (a : Word32) : crcBitSteps (n + 1) a = crcBitSteps n (crcBitStep a) := rfl

@[simp] theorem crcAbsorbAll_nil (a : Word32) : crcAbsorbAll a [] = a := rfl

@[simp] theorem crcAbsorbAll_cons (a : Word32) (b : Byte) (s : Bytes) :
    crcAbsorbAll a (b :: s) = crcAbsorbAll (crcAbsorb a b) s := rfl

/-- Absorbing two sequences is absorbing one after the other. -/
theorem crcAbsorbAll_append (a : Word32) (s t : Bytes) :
    crcAbsorbAll a (s ++ t) = crcAbsorbAll (crcAbsorbAll a s) t := by
  simp [crcAbsorbAll]

theorem crcFinalize_finalize (a : Word32) : crcFinalize (crcFinalize a) = a := by
  simp [crcFinalize]

theorem crc32_eq (s : Bytes) : crc32 s = crcFinalize (crcAbsorbAll Config.crcInit s) := rfl

end Sys2Proof.Machine
end

