-- ==== Sys2Proof/Laws/Operands.lean ====
section
/-! SUPPORT. The byte helpers: lengths, byte order, the type byte, and the fields of a packet. -/

namespace Sys2Proof

@[simp] theorem zeros_length (n : Nat) : (zeros n).length = n := by simp [zeros]

@[simp] theorem le32_length (v : Word32) : (le32 v).length = 4 := rfl

@[simp] theorem packetBytes_length (t : MessageType) (payload : Bytes) (crc : Word32) :
    (packetBytes t payload crc).length = payload.length + 5 := by
  simp [packetBytes]

@[simp] theorem sectorPayload_length (n : Int) : (sectorPayload n).length = Config.payloadLen := by
  simp [sectorPayload]

theorem pad16_length {c : Bytes} (h : c.length ≤ Config.maxChunk) : (pad16 c).length = Config.payloadLen := by
  simp only [pad16, List.length_append, zeros_length, Config.maxChunk, Config.payloadLen] at *
  omega

/-- Reading a word back from its little-endian bytes (R42). -/
@[simp] theorem fromLe32_le32 (v : Word32) : fromLe32 (le32 v) = v := by
  apply BitVec.eq_of_getLsbD_eq
  intro i hi
  interval_cases i <;> simp [fromLe32, le32, byteAt, zext32]

theorem le32_fromLe32_four (a b c d : Byte) : le32 (fromLe32 [a, b, c, d]) = [a, b, c, d] := by
  simp only [le32, List.cons.injEq, and_true]
  refine ⟨?_, ?_, ?_, ?_⟩ <;>
  · apply BitVec.eq_of_getLsbD_eq
    intro i hi
    interval_cases i <;> simp [fromLe32, byteAt, zext32]

/-- A sequence of four bytes is the little-endian form of the word it stands for (R42). -/
theorem le32_fromLe32 {s : Bytes} (h : s.length = 4) : le32 (fromLe32 s) = s := by
  match s, h with
  | [a, b, c, d], _ => exact le32_fromLe32_four a b c d

@[simp] theorem typeOfByte_typeByte (t : MessageType) : typeOfByte (typeByte t) = some t := by
  cases t <;> rfl

theorem typeByte_of_typeOfByte {b : Byte} {t : MessageType} (h : typeOfByte b = some t) : typeByte t = b := by
  unfold typeOfByte at h
  split at h <;> [skip; split at h <;> [skip; split at h <;> [skip; split at h]]] <;>
    first | (cases h; subst_vars; rfl) | cases h

/-- The fields of a packet stand at R64's offsets. -/
theorem packet_type (t : MessageType) (payload : Bytes) (crc : Word32) :
    byteAt (packetBytes t payload crc) Config.typeOffset = typeByte t := rfl

theorem packet_payload (t : MessageType) {payload : Bytes} (crc : Word32) (h : payload.length = Config.payloadLen) :
    slice (packetBytes t payload crc) Config.payloadOffset 16 = payload := by
  simp only [Config.payloadLen] at h
  simp [slice, packetBytes, ← h]

theorem packet_crc (t : MessageType) {payload : Bytes} (crc : Word32) (h : payload.length = Config.payloadLen) :
    slice (packetBytes t payload crc) Config.crcOffset 20 = le32 crc := by
  simp only [Config.payloadLen] at h
  simp [slice, packetBytes, ← h, Config.crcOffset]

theorem packet_body (t : MessageType) {payload : Bytes} (crc : Word32) (h : payload.length = Config.payloadLen) :
    slice (packetBytes t payload crc) 0 16 = typeByte t :: payload := by
  simp only [Config.payloadLen] at h
  simp [slice, packetBytes, ← h]

/-- A sequence of 21 bytes is its type byte, its payload and its CRC field. -/
theorem packet_split {s : Bytes} {t : MessageType} (h : s.length = Config.packetLen)
    (ht : typeOfByte (byteAt s Config.typeOffset) = some t) :
    packetBytes t (slice s Config.payloadOffset 16) (fromLe32 (slice s Config.crcOffset 20)) = s := by
  have hc : (slice s Config.crcOffset 20).length = 4 := by simp [slice, h]
  rw [packetBytes, le32_fromLe32 hc]
  match s, h with
  | b :: rest, h =>
    rw [typeByte_of_typeOfByte ht]
    have hr : rest.length = 20 := by simpa using h
    simp [slice, byteAt, Config.crcOffset, List.take_of_length_le, hr]

end Sys2Proof
end

