-- ==== Sys2Proof/Laws/Decode.lean ====
section
/-! SUPPORT. What decodes, and to what. -/

namespace Sys2Proof

/-- The bytes of a packet with a 16-byte payload decode to that packet (R64, R65). -/
theorem decodePacket_packetBytes (t : MessageType) {payload : Bytes} (crc : Word32)
    (h : payload.length = Config.payloadLen) :
    decodePacket (packetBytes t payload crc) = .ok (packetInstr t payload crc) := by
  have hl : (packetBytes t payload crc).length = Config.packetLen := by simp [h]
  simp only [decodePacket, hl, if_true, packet_type, typeOfByte_typeByte, packet_payload t crc h, packet_crc t crc h,
    fromLe32_le32]

/-- What a packet that decodes holds. -/
theorem decodePacket_ok {s : Bytes} {i : Instr} (h : decodePacket s = .ok i) :
    ∃ t payload crc, payload.length = Config.payloadLen ∧ i = packetInstr t payload crc ∧ s = packetBytes t payload crc := by
  unfold decodePacket at h
  split at h
  · rename_i hl
    split at h
    · rename_i t ht
      cases h
      exact ⟨t, _, _, by simp [slice, hl], rfl, (packet_split hl ht).symm⟩
    · cases h
  · cases h

theorem wellFormed_packetInstr (t : MessageType) (payload : Bytes) (crc : Word32) :
    (packetInstr t payload crc).wellFormed = (payload.length == Config.payloadLen) := by
  cases t <;> rfl

theorem encode_packetInstr (t : MessageType) (payload : Bytes) (crc : Word32) :
    encode (packetInstr t payload crc) = .packet (packetBytes t payload crc) := by
  cases t <;> rfl

/-- Every reply is the encoding of the row it decodes to. -/
theorem encode_decodeReply (r : Bytes) : encode (decodeReply r) = .reply r := by
  unfold decodeReply
  split
  · rfl
  · split
    · subst_vars; rfl
    · split
      · subst_vars; split <;> rfl
      · rfl

theorem wellFormed_decodeReply (r : Bytes) : (decodeReply r).wellFormed = true := by
  unfold decodeReply
  split
  · rfl
  · split
    · rfl
    · split
      · split <;> rfl
      · simp_all [Instr.wellFormed]

/-- A command that decodes is the encoding of what it decodes to. -/
theorem decodeCommand_ok {opcode : Byte} {operand : Operand} {i : Instr} (h : decodeCommand opcode operand = .ok i) :
    encode i = .command opcode operand ∧ i.wellFormed = true := by
  unfold decodeCommand at h
  split at h <;> first
    | (cases h; exact ⟨rfl, rfl⟩)
    | (split at h <;> cases h)

/-- How a command fails to decode: by its opcode first (R174), then by its operand's kind. -/
theorem decodeCommand_error {opcode : Byte} {operand : Operand} {e : DecodeError}
    (h : decodeCommand opcode operand = .error e) :
    e = .illegalOpcode opcode ∨ e = .wrongOperandKind opcode := by
  unfold decodeCommand at h
  split at h <;> first
    | cases h
    | (split at h <;> cases h <;> simp)

end Sys2Proof
end

