-- ==== Sys2Proof/Laws/State.lean ====
section
/-! SUPPORT. One lemma per field per update of State, and what reset holds. -/

namespace Sys2Proof.Machine

@[simp] theorem writeAcc_acc (v : Word32) (s : State) : (writeAcc v s).acc = v := rfl
@[simp] theorem writeAcc_inbox (v : Word32) (s : State) : (writeAcc v s).inbox = s.inbox := rfl
@[simp] theorem writeAcc_completion (v : Word32) (s : State) : (writeAcc v s).completion = s.completion := rfl

@[simp] theorem setCompletion_acc (c : Option Completion) (s : State) : (setCompletion c s).acc = s.acc := rfl
@[simp] theorem setCompletion_inbox (c : Option Completion) (s : State) : (setCompletion c s).inbox = s.inbox := rfl
@[simp] theorem setCompletion_completion (c : Option Completion) (s : State) : (setCompletion c s).completion = c := rfl

@[simp] theorem setInbox_acc (rest : List Event) (s : State) : (setInbox rest s).acc = s.acc := rfl
@[simp] theorem setInbox_inbox (rest : List Event) (s : State) : (setInbox rest s).inbox = rest := rfl
@[simp] theorem setInbox_completion (rest : List Event) (s : State) : (setInbox rest s).completion = s.completion := rfl

@[simp] theorem reset_acc : State.reset.acc = Config.crcInit := rfl
@[simp] theorem reset_inbox : State.reset.inbox = [] := rfl
@[simp] theorem reset_completion : State.reset.completion = none := rfl

@[simp] theorem writeAcc_self (s : State) : writeAcc s.acc s = s := rfl

@[simp] theorem setCompletion_setCompletion (c d : Option Completion) (s : State) :
    setCompletion c (setCompletion d s) = setCompletion c s := rfl

@[simp] theorem writeAcc_writeAcc (v w : Word32) (s : State) : writeAcc v (writeAcc w s) = writeAcc v s := rfl

end Sys2Proof.Machine
end

