-- ==== Sys2Proof/Laws/Ops.lean ====
section
/-! SUPPORT. For each shared operation, one lemma that says everything it can do. -/

namespace Sys2Proof.Machine

/-- Completing hands the result over with OK and changes nothing else. -/
theorem complete_spec {result : Option Result} {s t : State} (h : complete result s = .next t) :
    t.acc = s.acc ∧ t.inbox = s.inbox ∧ t.completion = some { status := .ok, result := result } := by
  cases h; exact ⟨rfl, rfl, rfl⟩

theorem complete_next (result : Option Result) (s : State) : ∃ t, complete result s = .next t := ⟨_, rfl⟩

/-- Raising hands the status over with no result and changes nothing else (R173). -/
theorem raise_spec {status : Status} {s t : State} (h : raise status s = .next t) :
    t.acc = s.acc ∧ t.inbox = s.inbox ∧ t.completion = some { status := status, result := none } := by
  cases h; exact ⟨rfl, rfl, rfl⟩

theorem raise_next (status : Status) (s : State) : ∃ t, raise status s = .next t := ⟨_, rfl⟩

/-- Reset sets ACC and completes nothing (R190). -/
theorem resetBlock_spec (s : State) :
    (resetBlock s).acc = Config.crcInit ∧ (resetBlock s).inbox = s.inbox ∧ (resetBlock s).completion = none :=
  ⟨rfl, rfl, rfl⟩

/-- Waiting changes nothing of the block and completes nothing (R20). -/
theorem idle_spec (s : State) :
    (idle s).acc = s.acc ∧ (idle s).inbox = s.inbox ∧ (idle s).completion = none :=
  ⟨rfl, rfl, rfl⟩

theorem completion_wf_ok (result : Option Result) :
    (Completion.mk .ok result).wellFormed = (result.map Result.wellFormed).getD true := by
  simp [Completion.wellFormed, Status.wellFormed]

theorem completion_wf_error {status : Status} (h : status.wellFormed = true) :
    (Completion.mk status none).wellFormed = true := by
  simp [Completion.wellFormed, h]

end Sys2Proof.Machine
end

