-- ==== Sys2Proof/Laws/Framer.lean ====
section
/-! SUPPORT. The framer's operations. -/

namespace Sys2Proof.Machine

theorem sealFrame_length {t : MessageType} {payload : Bytes} (h : payload.length = Config.payloadLen) :
    (sealFrame t payload).length = Config.packetLen := by
  simp [sealFrame, h]

/-- What a CMD builder does (R126, R127). -/
theorem buildCmd_valid {t : MessageType} {n : Int} (h : validSector n = true) (s : State) :
    buildCmd t n s = complete (some (.frame (sealFrame t (sectorPayload n)))) s := by
  simp [buildCmd, h]

theorem buildCmd_invalid {t : MessageType} {n : Int} (h : validSector n = false) (s : State) :
    buildCmd t n s = raise (.invalidSector n) s := by
  simp [buildCmd, h]

theorem validSector_iff (n : Int) : validSector n = true ↔ 0 ≤ n ∧ n ≤ 255 := by
  simp [validSector]

/-- The check of a packet's bytes compares its CRC field with the CRC of its body, and its type is never reserved. -/
theorem checkFrame_packetBytes (t : MessageType) {payload : Bytes} (crc : Word32)
    (h : payload.length = Config.payloadLen) :
    checkFrame (packetBytes t payload crc) =
      if crc = crc32 (typeByte t :: payload) then .valid t payload else .invalid .badCrc := by
  have hl : (packetBytes t payload crc).length = Config.packetLen := by simp [h]
  simp only [checkFrame, hl, ne_eq, not_true_eq_false, if_false, packet_crc t crc h, fromLe32_le32, packet_body t crc h,
    packet_type, typeOfByte_typeByte, packet_payload t crc h]
  by_cases hc : crc = crc32 (typeByte t :: payload) <;> simp [hc]

/-- A valid verdict's payload has 16 bytes. -/
theorem checkFrame_wellFormed (f : Bytes) : (Result.frameCheck (checkFrame f)).wellFormed = true := by
  unfold checkFrame
  split
  · rfl
  · rename_i hl
    split
    · rfl
    · split
      · have hl : f.length = 21 := by simpa using hl
        simp [Result.wellFormed, slice, hl]
      · rfl

end Sys2Proof.Machine
end

