-- ==== Sys2Proof/Laws/Exec.lean ====
section
/-! SUPPORT. What an instruction can do, said once: exec always answers a next state, which differs from the old one in ACC
(for CRC_INIT and CRC_UPDATE) and in a well-formed completion. -/

namespace Sys2Proof.Machine

/-- ACC after an instruction (R21: only CRC_INIT and CRC_UPDATE write it). -/
def accAfter (i : Instr) (a : Word32) : Word32 :=
  match i with
  | .crcInit => Config.crcInit
  | .crcUpdate b => crcAbsorb a b
  | _ => a

theorem complete_form {r : Option Result} (s : State) (a : Word32) (hs : s.acc = a)
    (h : (r.map Result.wellFormed).getD true = true) :
    ∃ c, c.wellFormed = true ∧ complete r s = .next (setCompletion (some c) (writeAcc a s)) :=
  ⟨⟨.ok, r⟩, by rw [completion_wf_ok]; exact h, by subst hs; rfl⟩

theorem buildCmd_form (t : MessageType) (n : Int) (s : State) :
    ∃ c, c.wellFormed = true ∧ buildCmd t n s = .next (setCompletion (some c) s) := by
  cases h : validSector n with
  | true =>
    rw [buildCmd_valid h]
    exact complete_form s s.acc rfl (by simp [Result.wellFormed, sealFrame_length])
  | false =>
    rw [buildCmd_invalid h]
    refine ⟨⟨.invalidSector n, none⟩, completion_wf_error ?_, rfl⟩
    have : ¬ (0 ≤ n ∧ n ≤ 255) := by rw [← validSector_iff]; simp [h]
    simp only [Status.wellFormed, Config.sectorMin, Config.sectorMax, decide_eq_true_eq]
    omega

theorem execBuildData_form (chunk : Bytes) (s : State) :
    ∃ c, c.wellFormed = true ∧ execBuildData chunk s = .next (setCompletion (some c) s) := by
  unfold execBuildData
  split
  · rename_i h
    exact ⟨⟨.payloadTooLarge chunk.length, none⟩, completion_wf_error (by simpa [Status.wellFormed] using h), rfl⟩
  · rename_i h
    exact complete_form s s.acc rfl (by simp [Result.wellFormed, sealFrame_length (pad16_length (not_lt.mp h))])

/-- The whole of what exec can do. -/
theorem exec_form (i : Instr) (s : State) :
    ∃ c, c.wellFormed = true ∧ exec i s = .next (setCompletion (some c) (writeAcc (accAfter i s.acc) s)) := by
  cases i with
  | crcInit => exact complete_form (writeAcc _ s) _ rfl rfl
  | crcUpdate b => exact complete_form (writeAcc _ s) _ rfl rfl
  | crcFinal => exact complete_form s _ rfl rfl
  | crc32 bs => exact complete_form s _ rfl rfl
  | buildCmdWrite n => exact buildCmd_form _ n s
  | buildCmdErase n => exact buildCmd_form _ n s
  | buildData c => exact execBuildData_form c s
  | buildFinish => exact complete_form s _ rfl (by simp [Result.wellFormed, sealFrame_length])
  | verifySize f => exact complete_form s _ rfl rfl
  | checkFrame f => exact complete_form s _ rfl (checkFrame_wellFormed f)
  | interpret r => exact complete_form s _ rfl rfl
  | pktCmdWrite p c => exact complete_form s _ rfl (checkFrame_wellFormed _)
  | pktCmdErase p c => exact complete_form s _ rfl (checkFrame_wellFormed _)
  | pktData p c => exact complete_form s _ rfl (checkFrame_wellFormed _)
  | pktFinish p c => exact complete_form s _ rfl (checkFrame_wellFormed _)
  | replyAck rest => exact complete_form s _ rfl rfl
  | replyNack code rest => exact complete_form s _ rfl rfl
  | replyUnrecognized b rest => exact complete_form s _ rfl rfl
  | replyNoResponse => exact complete_form s _ rfl rfl

/-- Every instruction completes (R170). -/
theorem exec_next (i : Instr) (s : State) : ∃ t, exec i s = .next t :=
  let ⟨_, _, h⟩ := exec_form i s
  ⟨_, h⟩

theorem exec_spec {i : Instr} {s t : State} (h : exec i s = .next t) :
    t.acc = accAfter i s.acc ∧ t.inbox = s.inbox ∧ ∃ c, t.completion = some c ∧ c.wellFormed = true := by
  obtain ⟨c, hc, he⟩ := exec_form i s
  rw [he] at h
  cases h
  exact ⟨rfl, rfl, c, rfl, hc⟩

/-- No instruction reads the last completion (R25). -/
theorem exec_congr {i : Instr} {s u : State} (ha : s.acc = u.acc) (hi : s.inbox = u.inbox) : exec i s = exec i u := by
  obtain ⟨a, b, c⟩ := s
  obtain ⟨a', b', c'⟩ := u
  cases ha; cases hi
  cases i with
  | buildCmdWrite n => simp only [exec, execBuildCmdWrite, buildCmd]; split <;> rfl
  | buildCmdErase n => simp only [exec, execBuildCmdErase, buildCmd]; split <;> rfl
  | buildData c => simp only [exec, execBuildData]; split <;> rfl
  | _ => rfl

end Sys2Proof.Machine
end

