-- ==== Sys2Proof/Laws/PerInstr.lean ====
section
/-! SUPPORT. Statements made once per instruction. -/

namespace Sys2Proof.Laws.RoundTrip

/-- Decoding an encoded well-formed instruction gives it back. -/
def Statement (i : Instr) : Prop := i.wellFormed = true → decode (encode i) = .ok i

theorem crcInit : Statement .crcInit := fun _ => rfl
theorem crcUpdate (b : Byte) : Statement (.crcUpdate b) := fun _ => rfl
theorem crcFinal : Statement .crcFinal := fun _ => rfl
theorem crc32 (s : Bytes) : Statement (.crc32 s) := fun _ => rfl
theorem buildCmdWrite (n : Int) : Statement (.buildCmdWrite n) := fun _ => rfl
theorem buildCmdErase (n : Int) : Statement (.buildCmdErase n) := fun _ => rfl
theorem buildData (c : Bytes) : Statement (.buildData c) := fun _ => rfl
theorem buildFinish : Statement .buildFinish := fun _ => rfl
theorem verifySize (s : Bytes) : Statement (.verifySize s) := fun _ => rfl
theorem checkFrame (s : Bytes) : Statement (.checkFrame s) := fun _ => rfl
theorem interpret (r : Bytes) : Statement (.interpret r) := fun _ => rfl

theorem pktCmdWrite (payload : Bytes) (crc : Word32) : Statement (.pktCmdWrite payload crc) :=
  fun h => decodePacket_packetBytes .cmdWrite crc (by simpa [Instr.wellFormed] using h)
theorem pktCmdErase (payload : Bytes) (crc : Word32) : Statement (.pktCmdErase payload crc) :=
  fun h => decodePacket_packetBytes .cmdErase crc (by simpa [Instr.wellFormed] using h)
theorem pktData (payload : Bytes) (crc : Word32) : Statement (.pktData payload crc) :=
  fun h => decodePacket_packetBytes .data crc (by simpa [Instr.wellFormed] using h)
theorem pktFinish (payload : Bytes) (crc : Word32) : Statement (.pktFinish payload crc) :=
  fun h => decodePacket_packetBytes .finish crc (by simpa [Instr.wellFormed] using h)

theorem replyAck (rest : Bytes) : Statement (.replyAck rest) := fun _ => rfl
theorem replyNack (code : Option Byte) (rest : Bytes) : Statement (.replyNack code rest) := by
  intro h
  cases code with
  | some c => rfl
  | none =>
    have : rest = [] := by simpa [Instr.wellFormed] using h
    subst this; rfl
theorem replyUnrecognized (b : Byte) (rest : Bytes) : Statement (.replyUnrecognized b rest) := by
  intro h
  simp only [Instr.wellFormed, Bool.and_eq_true, bne_iff_ne, ne_eq] at h
  simp [decode, encode, decodeReply, h.1, h.2]
theorem replyNoResponse : Statement .replyNoResponse := fun _ => rfl

end Sys2Proof.Laws.RoundTrip
end

