-- ==== Sys2Proof/Laws/Responder.lean ====
section
/-! SUPPORT. The response decoder, by its cases (R152). -/

namespace Sys2Proof.Machine

@[simp] theorem interpretReply_nil : interpretReply [] = .timeout := rfl

@[simp] theorem interpretReply_ack (rest : Bytes) : interpretReply (Config.replyAck :: rest) = .ack := rfl

@[simp] theorem interpretReply_nack (rest : Bytes) : interpretReply (Config.replyNack :: rest) = .nack rest.head? := rfl

theorem interpretReply_other {b : Byte} (ha : b ≠ Config.replyAck) (hn : b ≠ Config.replyNack) (rest : Bytes) :
    interpretReply (b :: rest) = .unrecognized b := by
  simp [interpretReply, ha, hn]

/-- Every class, with the replies that belong to it. -/
theorem interpretReply_cases (r : Bytes) :
    (r = [] ∧ interpretReply r = .timeout) ∨
    (∃ rest, r = Config.replyAck :: rest ∧ interpretReply r = .ack) ∨
    (∃ rest, r = Config.replyNack :: rest ∧ interpretReply r = .nack rest.head?) ∨
    (∃ b rest, r = b :: rest ∧ b ≠ Config.replyAck ∧ b ≠ Config.replyNack ∧ interpretReply r = .unrecognized b) := by
  match r with
  | [] => exact .inl ⟨rfl, rfl⟩
  | b :: rest =>
    by_cases ha : b = Config.replyAck
    · subst ha; exact .inr (.inl ⟨rest, rfl, rfl⟩)
    by_cases hn : b = Config.replyNack
    · subst hn; exact .inr (.inr (.inl ⟨rest, rfl, rfl⟩))
    exact .inr (.inr (.inr ⟨b, rest, rfl, ha, hn, interpretReply_other ha hn rest⟩))

end Sys2Proof.Machine
end

