-- ==== Sys2Proof/Laws/Safety.lean ====
section
/-! SUPPORT. What an act of a host that keeps its duties can do, and how a run of acts splits. -/

namespace Sys2Proof.Safety

open Sys2Proof.Machine

theorem hostRun_nil (timing : Config.HostTiming) (phase : HostPhase) : hostRun timing phase [] = some phase := rfl

theorem hostRun_cons (timing : Config.HostTiming) (phase : HostPhase) (a : TimedAct) (rest : List TimedAct) :
    hostRun timing phase (a :: rest) = (hostStep timing phase a).bind (fun next => hostRun timing next rest) := by
  rw [hostRun]
  cases hostStep timing phase a <;> rfl

/-- A run of acts is the run of the first ones, then of the others from the phase they lead to. -/
theorem hostRun_append (timing : Config.HostTiming) (phase : HostPhase) (xs ys : List TimedAct) :
    hostRun timing phase (xs ++ ys) = (hostRun timing phase xs).bind (fun next => hostRun timing next ys) := by
  induction xs generalizing phase with
  | nil => rfl
  | cons a xs ih =>
    rw [List.cons_append, hostRun_cons, hostRun_cons]
    cases hostStep timing phase a with
    | none => rfl
    | some next => exact ih next

/-- A packet is sent only from `cleared` or `ready`, not before its time, and then its reply is awaited. -/
theorem hostStep_send {timing : Config.HostTiming} {p q : HostPhase} {a : TimedAct} (h : hostStep timing p a = some q)
    (ha : a.act.isSend = true) :
    (∃ notBefore, notBefore ≤ a.time ∧ (p = .cleared notBefore ∨ ∃ t k, p = .ready t k notBefore)) ∧
      ∃ t k, q = .awaiting t k a.time := by
  unfold hostStep at h
  split at h <;> rename_i hact
  · rw [hact] at ha; cases ha
  · rw [hact] at ha; cases ha
  · rw [hact] at ha; cases ha
  · split at h
    · rename_i hc; cases h; exact ⟨⟨_, hc.1, .inl rfl⟩, _, _, rfl⟩
    · split at h
      · rename_i hc; cases h; exact ⟨⟨_, hc.1, .inl rfl⟩, _, _, rfl⟩
      · cases h
  · split at h
    · rename_i hc; cases h; exact ⟨⟨_, hc.1, .inr ⟨_, _, rfl⟩⟩, _, _, rfl⟩
    · cases h
  · split at h
    · rename_i hc; cases h; exact ⟨⟨_, hc.1, .inr ⟨_, _, rfl⟩⟩, _, _, rfl⟩
    · cases h
  · rw [hact] at ha; cases ha
  · cases h

/-- A reply is taken only while one is awaited and within R197's limit; what follows is afterReply's phase. -/
theorem hostStep_reply {timing : Config.HostTiming} {p q : HostPhase} {a : TimedAct} {r : Bytes} {w : Nat}
    (h : hostStep timing p a = some q) (ha : a.act = .gotReply r w) :
    ∃ t k sentAt, p = .awaiting t k sentAt ∧ sentAt ≤ a.time ∧ a.time ≤ sentAt + timing.responseTimeout ∧
      (r.head? = some Config.replyNack → timing.nackCodeDelay ≤ w) ∧
      q = afterReply timing t k a.time (interpretReply r) := by
  unfold hostStep at h
  rw [ha] at h
  split at h <;> rename_i hact <;> first | cases hact | skip
  · split at h
    · rename_i hc; cases h; exact ⟨_, _, _, rfl, hc.1, hc.2.1, hc.2.2, rfl⟩
    · cases h
  · cases h

/-- Buffers are cleared only outside a flow, and the wait that is left stays. -/
theorem hostStep_clear {timing : Config.HostTiming} {p q : HostPhase} {a : TimedAct} (h : hostStep timing p a = some q)
    (ha : a.act = .clearBuffers) :
    (∃ notBefore, (p = .quiet notBefore ∨ p = .cleared notBefore) ∧ q = .cleared notBefore) ∨
      (p = .failed ∧ q = .cleared 0) := by
  unfold hostStep at h
  rw [ha] at h
  split at h <;> rename_i hact <;> first | cases hact | skip
  · cases h; exact .inl ⟨_, .inl rfl, rfl⟩
  · cases h; exact .inl ⟨_, .inr rfl, rfl⟩
  · cases h; exact .inr ⟨rfl, rfl⟩
  · cases h

end Sys2Proof.Safety
end

