-- ==== Sys2Proof/Laws/Step.lean ====
section
/-! SUPPORT. What a step can do, said once. -/

namespace Sys2Proof.Machine

theorem rejectRequest_form (e : DecodeError) (s : State) :
    ∃ c, c.wellFormed = true ∧ rejectRequest e s = .next (setCompletion (some c) s) := by
  cases e with
  | illegalOpcode op => exact ⟨⟨.illegalCommand op, none⟩, completion_wf_error rfl, rfl⟩
  | wrongOperandKind op => exact ⟨⟨.illegalCommand op, none⟩, completion_wf_error rfl, rfl⟩
  | notAPacket f => exact complete_form s s.acc rfl (checkFrame_wellFormed f)

/-- ACC after a request. -/
def accAfterRequest (r : Request) (a : Word32) : Word32 :=
  match decode r with
  | .ok i => accAfter i a
  | .error _ => a

theorem perform_form (r : Request) (s : State) :
    ∃ c, c.wellFormed = true ∧ perform r s = .next (setCompletion (some c) (writeAcc (accAfterRequest r s.acc) s)) := by
  unfold perform accAfterRequest
  cases decode r with
  | ok i => exact exec_form i s
  | error e => exact rejectRequest_form e s

theorem perform_ok {r : Request} {i : Instr} (h : decode r = .ok i) (s : State) : perform r s = exec i s := by
  simp [perform, h]

theorem step_nil {s : State} (h : s.inbox = []) : step s = .next (idle s) := by
  simp [step, h]

theorem step_reset {s : State} {rest : List Event} (h : s.inbox = .reset :: rest) :
    step s = .next (resetBlock (setInbox rest s)) := by
  simp [step, h]

theorem step_request {s : State} {r : Request} {rest : List Event} (h : s.inbox = .request r :: rest) :
    step s = perform r (setInbox rest s) := by
  simp [step, h]

/-- A step that answers `t` waited, reset the block, or performed the oldest request. -/
theorem step_cases {s t : State} (h : step s = .next t) :
    (s.inbox = [] ∧ t = idle s) ∨
    (∃ rest, s.inbox = .reset :: rest ∧ t = resetBlock (setInbox rest s)) ∨
    (∃ r rest c, s.inbox = .request r :: rest ∧ c.wellFormed = true ∧ t.completion = some c ∧ t.inbox = rest ∧
      t.acc = accAfterRequest r s.acc ∧ perform r (setInbox rest s) = .next t) := by
  match hi : s.inbox with
  | [] => rw [step_nil hi] at h; cases h; exact .inl ⟨rfl, rfl⟩
  | .reset :: rest => rw [step_reset hi] at h; cases h; exact .inr (.inl ⟨rest, rfl, rfl⟩)
  | .request r :: rest =>
    rw [step_request hi] at h
    obtain ⟨c, hc, hp⟩ := perform_form r (setInbox rest s)
    have := hp.symm.trans h
    cases this
    exact .inr (.inr ⟨r, rest, c, rfl, hc, rfl, rfl, rfl, h⟩)

/-- No step reads the last completion (R25). -/
theorem step_congr {s u : State} (ha : s.acc = u.acc) (hi : s.inbox = u.inbox) : step s = step u := by
  match h : s.inbox with
  | [] =>
    rw [step_nil h, step_nil (hi ▸ h)]
    simp [idle, setCompletion, ha, hi]
  | .reset :: rest =>
    rw [step_reset h, step_reset (hi ▸ h)]
    simp [resetBlock, setCompletion, writeAcc, setInbox]
  | .request r :: rest =>
    rw [step_request h, step_request (hi ▸ h)]
    unfold perform
    split
    · exact exec_congr ha rfl
    · rename_i e _
      cases e <;> simp [rejectRequest, raise, complete, setCompletion, setInbox, ha]

/-- A run of one step more begins with that step. -/
theorem run_succ {s t : State} (k : Nat) (h : step s = .next t) :
    Host.Core.run Sys2Proof.core (k + 1) s = Host.Core.run Sys2Proof.core k t := by
  have h' : Sys2Proof.core.step s = .next t := h
  simp only [Host.Core.run, h']

end Sys2Proof.Machine
end

