-- ==== Sys2Proof/Tests/Slice0.lean ====
section
/-! SUPPORT. The model's own tests. Expected values are the words of spec/30_encoding.md (R62, R64, R68) and the vectors of
spec/95_test_vectors.md; each test names its vector. Then the witnesses: for each statement with hypotheses, values that
meet them. -/

namespace Sys2Proof.Tests

open Sys2Proof.Machine Sys2Proof.Certificates

/-- A state with an accumulator and inputs. -/
def at' (acc : Word32) (inbox : List Event) : State := { acc := acc, inbox := inbox, completion := none }

/-- What a command hands back, from ACC 0x5AFA20E4 (2.8's value). -/
def completionOf (i : Instr) : Option Completion :=
  match exec i (at' 0x5AFA20E4#32 []) with
  | .next t => t.completion
  | .fault _ => none
  | .refused _ => none

/-- The result of a command. -/
def resultOf (i : Instr) : Option Result := (completionOf i).bind Completion.result

/-- ACC after a command, from a value. -/
def accOf (acc : Word32) (i : Instr) : Option Word32 :=
  match exec i (at' acc []) with
  | .next t => some t.acc
  | .fault _ => none
  | .refused _ => none

/-! ## WellFormed refuses each ill-formed term -/

theorem test_illFormed_pktCmdWrite : (Instr.pktCmdWrite (zeros 15) 0#32).wellFormed = false := by decide
theorem test_illFormed_pktCmdErase : (Instr.pktCmdErase (zeros 17) 0#32).wellFormed = false := by decide
theorem test_illFormed_pktData : (Instr.pktData [] 0#32).wellFormed = false := by decide
theorem test_illFormed_pktFinish : (Instr.pktFinish (zeros 21) 0#32).wellFormed = false := by decide
theorem test_illFormed_replyNack : (Instr.replyNack none [0x01#8]).wellFormed = false := by decide
theorem test_illFormed_replyUnrecognized_ack : (Instr.replyUnrecognized 0xAA#8 []).wellFormed = false := by decide
theorem test_illFormed_replyUnrecognized_nack : (Instr.replyUnrecognized 0x55#8 []).wellFormed = false := by decide

/-! ## Decoding of words written out from the encodings -/

theorem test_decode_crcInit : decodeTableWord 8 0x10 = some .crcInit := by decide
theorem test_decode_crcUpdate : decodeTableWord 16 0x3111 = some (.crcUpdate 0x31#8) := by decide
theorem test_decode_crcFinal : decodeTableWord 8 0x12 = some .crcFinal := by decide
theorem test_decode_crc32 : decodeTableWord 32 0x63626113 = some (.crc32 [0x61#8, 0x62#8, 0x63#8]) := by decide
theorem test_decode_buildCmdWrite : decode (.command 0x20#8 (.int (-1))) = .ok (.buildCmdWrite (-1)) := by rfl
theorem test_decode_buildCmdErase : decodeTableWord 16 0x0721 = some (.buildCmdErase 7) := by decide
theorem test_decode_buildData : decodeTableWord 24 0x212022 = some (.buildData [0x20#8, 0x21#8]) := by decide
theorem test_decode_buildFinish : decodeTableWord 8 0x23 = some .buildFinish := by decide
theorem test_decode_verifySize : decodeTableWord 8 0x24 = some (.verifySize []) := by decide
theorem test_decode_checkFrame : decodeTableWord 8 0x25 = some (.checkFrame []) := by decide
theorem test_decode_interpret : decodeTableWord 16 0xAA30 = some (.interpret [0xAA#8]) := by decide
theorem test_decode_pktCmdWrite :
    decode (.packet [0x01, 0x03, 0, 0, 0, 0, 0, 0, 0, 0, 0, 0, 0, 0, 0, 0, 0, 0x0C, 0x8E, 0x81, 0x67]) =
      .ok (.pktCmdWrite (0x03#8 :: zeros 15) 0x67818E0C#32) := by rfl
theorem test_decode_pktCmdErase :
    decode (.packet [0x02, 0x07, 0, 0, 0, 0, 0, 0, 0, 0, 0, 0, 0, 0, 0, 0, 0, 0x0F, 0x99, 0x2A, 0xE0]) =
      .ok (.pktCmdErase (0x07#8 :: zeros 15) 0xE02A990F#32) := by rfl
theorem test_decode_pktData :
    decode (.packet [0x03, 0x20, 0x21, 0, 0, 0, 0, 0, 0, 0, 0, 0, 0, 0, 0, 0, 0, 0x32, 0x34, 0x74, 0xBC]) =
      .ok (.pktData (0x20#8 :: 0x21#8 :: zeros 14) 0xBC743432#32) := by rfl
theorem test_decode_pktFinish :
    decode (.packet [0x04, 0, 0, 0, 0, 0, 0, 0, 0, 0, 0, 0, 0, 0, 0, 0, 0, 0x72, 0xD6, 0xE7, 0xBA]) =
      .ok (.pktFinish (zeros 16) 0xBAE7D672#32) := by rfl
theorem test_decode_replyAck : decode (.reply [0xAA, 0x55]) = .ok (.replyAck [0x55]) := by rfl
theorem test_decode_replyNack : decode (.reply [0x55, 0x04, 0x99]) = .ok (.replyNack (some 0x04) [0x99]) := by rfl
theorem test_decode_replyUnrecognized : decode (.reply [0xFF, 0xAA]) = .ok (.replyUnrecognized 0xFF [0xAA]) := by rfl
theorem test_decode_replyNoResponse : decodeTableWord 0 0 = some .replyNoResponse := by decide
/-- V-ER-3. -/
theorem test_decode_illegal : decode (.command 0x99#8 .none) = .error (.illegalOpcode 0x99#8) := by rfl
theorem test_decode_wrongKind : decode (.command 0x11#8 (.int 256)) = .error (.wrongOperandKind 0x11#8) := by rfl
theorem test_decode_reservedType : decode (.packet (zeros 21)) = .error (.notAPacket (zeros 21)) := by rfl
theorem test_tableWord_runs : step (State.reset.withFetchWord 8 0x11) = exec (.crcUpdate 0#8) State.reset := by rfl

/-! ## CRC-32 engine -/

/-- V-BS-5. -/
theorem test_bitStep_odd : crcBitStep 0xFFFFFFFF#32 = 0x92477CDF#32 := by decide
/-- V-BS-4. -/
theorem test_bitStep_logical : crcBitStep 0x80000000#32 = 0x40000000#32 := by decide
/-- V-CRC-S2. -/
theorem test_crcInit : accOf 0x12345678#32 .crcInit = some 0xFFFFFFFF#32 := by decide +kernel
/-- 2.4, after '2'. -/
theorem test_crcUpdate : accOf 0x7C231048#32 (.crcUpdate 0x32#8) = some 0xB0ACBB32#32 := by decide +kernel
/-- R106's corner case. -/
theorem test_crcUpdate_zero : accOf 0xFFFFFFFF#32 (.crcUpdate 0x00#8) = some 0x2DFD1072#32 := by decide +kernel
/-- V-CRC-S4. -/
theorem test_crcFinal : resultOf .crcFinal = some (.word32 0xA505DF1B#32) := by decide +kernel
/-- V-ER-4. -/
theorem test_crc32_abc : resultOf (.crc32 [0x61, 0x62, 0x63]) = some (.word32 0x352441C2#32) := by decide +kernel
/-- V-CRC-9. -/
theorem test_crc32_ones : resultOf (.crc32 [0xFF, 0xFF, 0xFF, 0xFF]) = some (.word32 0xFFFFFFFF#32) := by decide +kernel

/-! ## Packet framer -/

/-- V-FR-3. -/
theorem test_buildCmdWrite_255 : resultOf (.buildCmdWrite 255) = some (.frame
    [0x01, 0xFF, 0, 0, 0, 0, 0, 0, 0, 0, 0, 0, 0, 0, 0, 0, 0, 0x29, 0x03, 0x38, 0x43]) := by decide +kernel
/-- V-FR-4. -/
theorem test_buildCmdWrite_negative :
    completionOf (.buildCmdWrite (-1)) = some { status := .invalidSector (-1), result := none } := by decide +kernel
/-- V-FR-8. -/
theorem test_buildCmdErase_255 : resultOf (.buildCmdErase 255) = some (.frame
    [0x02, 0xFF, 0, 0, 0, 0, 0, 0, 0, 0, 0, 0, 0, 0, 0, 0, 0, 0xAD, 0x58, 0xA2, 0x10]) := by decide +kernel
/-- V-FR-9. -/
theorem test_buildCmdErase_1000 :
    completionOf (.buildCmdErase 1000) = some { status := .invalidSector 1000, result := none } := by decide +kernel
/-- V-FR-17. -/
theorem test_buildData_hello : resultOf (.buildData (BytesText.ascii "hello").value) = some (.frame
    [0x03, 0x68, 0x65, 0x6C, 0x6C, 0x6F, 0, 0, 0, 0, 0, 0, 0, 0, 0, 0, 0, 0x41, 0xCD, 0x39, 0xC9]) := by decide +kernel
/-- V-FR-16. -/
theorem test_buildData_17 :
    completionOf (.buildData (zeros 17)) = some { status := .payloadTooLarge 17, result := none } := by decide +kernel
/-- V-FR-18. -/
theorem test_buildFinish : resultOf .buildFinish = some (.frame
    [0x04, 0, 0, 0, 0, 0, 0, 0, 0, 0, 0, 0, 0, 0, 0, 0, 0, 0x72, 0xD6, 0xE7, 0xBA]) := by decide +kernel
/-- V-FC-3. -/
theorem test_verifySize_21 : resultOf (.verifySize (zeros 21)) = some (.bool true) := by decide +kernel
/-- V-FC-4. -/
theorem test_verifySize_22 : resultOf (.verifySize (zeros 22)) = some (.bool false) := by decide +kernel
/-- V-FC-10: the CRC is checked before the type. -/
theorem test_checkFrame_badCrc : resultOf (.checkFrame
    [0x05, 0, 0, 0, 0, 0, 0, 0, 0, 0, 0, 0, 0, 0, 0, 0, 0, 0xCE, 0x1D, 0x41, 0x3D]) =
      some (.frameCheck (.invalid .badCrc)) := by decide +kernel
/-- V-FC-9. -/
theorem test_checkFrame_badType : resultOf (.checkFrame
    [0x05, 0, 0, 0, 0, 0, 0, 0, 0, 0, 0, 0, 0, 0, 0, 0, 0, 0x31, 0x1D, 0x41, 0x3D]) =
      some (.frameCheck (.invalid .badType)) := by decide +kernel
/-- V-FC-13: padding is not checked. -/
theorem test_pktCmdWrite_padding : resultOf (.pktCmdWrite (0x03#8 :: 0x5A#8 :: zeros 14) 0x8E171728#32) =
    some (.frameCheck (.valid .cmdWrite (0x03#8 :: 0x5A#8 :: zeros 14))) := by decide +kernel
/-- V-FR-7's CRC. -/
theorem test_pktCmdErase : resultOf (.pktCmdErase (0x07#8 :: zeros 15) 0xE02A990F#32) =
    some (.frameCheck (.valid .cmdErase (0x07#8 :: zeros 15))) := by decide +kernel
/-- V-FR-10's CRC. -/
theorem test_pktData : resultOf (.pktData (zeros 16) 0x9A75AA39#32) =
    some (.frameCheck (.valid .data (zeros 16))) := by decide +kernel
/-- V-FC-12: a CRC stored big-endian. -/
theorem test_pktFinish_bigEndian : resultOf (.pktFinish (zeros 16) 0x72D6E7BA#32) =
    some (.frameCheck (.invalid .badCrc)) := by decide +kernel

/-! ## Response decoder -/

/-- V-RD-12. -/
theorem test_interpret_nack : resultOf (.interpret [0x55, 0x04, 0x99]) = some (.outcome (.nack (some 0x04))) := by decide
/-- V-RD-4. -/
theorem test_interpret_nackWithoutCode : resultOf (.interpret [0x55]) = some (.outcome (.nack none)) := by decide
/-- V-RD-3. -/
theorem test_replyAck : resultOf (.replyAck [0x55]) = some (.outcome .ack) := by decide
/-- V-RD-11. -/
theorem test_replyNack : resultOf (.replyNack (some 0xFF) []) = some (.outcome (.nack (some 0xFF))) := by decide
/-- V-RD-15. -/
theorem test_replyUnrecognized : resultOf (.replyUnrecognized 0xFF [0xAA]) = some (.outcome (.unrecognized 0xFF)) := by
  decide
/-- V-RD-1. -/
theorem test_replyNoResponse : resultOf .replyNoResponse = some (.outcome .timeout) := by decide
/-- V-RD-10. -/
theorem test_nackReason_zero : nackReason 0x00#8 = .unknown 0x00#8 := by decide
/-- W9. -/
theorem test_nackReport_four : nackReport (some 0x04#8) = some "invalid command data (sector out of range)" := by decide

/-! ## Steps and host duties -/

/-- V-ER-3, as a step. -/
theorem test_step_illegal : step (at' 0x5AFA20E4#32 [.request (.command 0x99#8 .none)]) =
    .next (failed (.illegalCommand 0x99#8) (at' 0x5AFA20E4#32 [])) := by rfl
theorem test_step_reset : step (at' 0x12345678#32 [.reset]) = .next (at' 0xFFFFFFFF#32 []) := by rfl
theorem test_step_badPacket : step (at' 0#32 [.request (.packet [])]) =
    .next (done 0#32 (some (.frameCheck (.invalid .badLength))) (at' 0#32 [])) := by rfl

/-- W13: the erase flow, with its waits. -/
def eraseFlow : List Safety.TimedAct :=
  [⟨0, .clearBuffers⟩, ⟨1, .sendCommand (sealFrame .cmdErase (sectorPayload 7))⟩, ⟨50, .gotReply [0xAA#8] 0⟩,
    ⟨550, .sendFinish (sealFrame .finish (zeros 16))⟩, ⟨600, .gotReply [0xAA#8] 0⟩]

theorem test_host_erase : Safety.hostRun (.defaults 20) (.quiet 0) eraseFlow = some (.quiet 800) := by decide +kernel

/-- R195: the first packet of a new flow waits ACK_SETTLE (200 ms) after FINISH's Ack (at 600) too. -/
theorem test_host_settleAfterFinish :
    Safety.hostKeepsDuties (.defaults 20) (eraseFlow ++ [⟨610, .clearBuffers⟩,
      ⟨799, .sendCommand (sealFrame .cmdErase (sectorPayload 8))⟩]) = false ∧
    Safety.hostKeepsDuties (.defaults 20) (eraseFlow ++ [⟨610, .clearBuffers⟩,
      ⟨800, .sendCommand (sealFrame .cmdErase (sectorPayload 8))⟩]) = true := by decide +kernel

/-- R196: FINISH before POST_ERASE_DELAY is over breaks a duty. -/
theorem test_host_tooEarly : Safety.hostStep (.defaults 20) (.ready .cmdErase 0 550)
    ⟨549, .sendFinish (sealFrame .finish (zeros 16))⟩ = none := by decide +kernel

/-! ## Witnesses: values that meet the hypotheses of the statements -/

theorem witness_IllegalCommand_opcode :
    (at' 0#32 [.request (.command 0x14#8 .none)]).inbox = .request (.command 0x14#8 .none) :: [] ∧
    ((0x14#8, Operand.none.format) ∉ opcodeFormats) := by decide
theorem witness_IllegalCommand_kind : ((0x10#8, (Operand.byte 0#8).format) ∉ opcodeFormats) := by decide
theorem witness_payloadOfSixteen : (zeros 16).length = 16 := by decide
theorem witness_PacketDecodes : (∃ i, decode (.packet (0x04#8 :: zeros 20)) = .ok i) ∧ (0x04#8 :: zeros 20).length = 21 :=
  ⟨⟨_, rfl⟩, by decide⟩
theorem witness_ReplyRow_other : (0x00#8 : Byte) ≠ 0xAA#8 ∧ (0x00#8 : Byte) ≠ 0x55#8 := by decide
theorem witness_DecodeOfEncode : (Instr.pktData (zeros 16) 0xFFFFFFFF#32).wellFormed = true := by decide
theorem witness_EncodeOfDecode : decode (.reply [0x55]) = .ok (.replyNack none []) := by rfl
theorem witness_StepRuns : (at' 0#32 [.request (.reply []), .reset]).inbox = .request (.reply []) :: [.reset] ∧
    decode (.reply []) = .ok .replyNoResponse := ⟨rfl, rfl⟩
theorem witness_FetchWord : decodeTableWord 8 0x30 = some (.interpret []) := by decide
theorem witness_StepWithoutInput : State.reset.inbox = [] := by rfl
theorem witness_ResetInput : (at' 0#32 [.reset]).inbox = .reset :: [] := by rfl
theorem witness_EveryRequest : (at' 0#32 [.request (.packet [])]).inbox = .request (.packet []) :: [] := by rfl
theorem witness_StepAnswers : step State.reset = .next State.reset := by rfl
theorem witness_FailedCommand : ∃ t c, step (at' 0#32 [.request (.command 0x20#8 (.int 256))]) = .next t ∧
    t.completion = some c ∧ c.status ≠ .ok := ⟨_, _, rfl, rfl, by decide⟩
theorem witness_Statuses_illegal :
    (at' 0#32 [.request (.command 0xFF#8 (.bytes []))]).inbox = .request (.command 0xFF#8 (.bytes [])) :: [] := by rfl
theorem witness_CommandsWithoutErrors : (∀ n, Instr.crcFinal ≠ .buildCmdWrite n) ∧ (∀ n, Instr.crcFinal ≠ .buildCmdErase n) ∧
    (∀ c, Instr.crcFinal ≠ .buildData c) := by simp
theorem witness_OtherInstructions : Instr.crcFinal ≠ .crcInit ∧ (∀ b, Instr.crcFinal ≠ .crcUpdate b) ∧
    ∃ t, exec .crcFinal State.reset = .next t := ⟨by simp, by simp, _, rfl⟩
theorem witness_AccWriters : (∃ b, Instr.crcUpdate 0x31#8 = .crcUpdate b) ∧ ∃ t, exec (.crcUpdate 0x31#8) State.reset = .next t :=
  ⟨⟨_, rfl⟩, _, rfl⟩
theorem witness_AccChanges : ∃ t, step (at' 0#32 [.reset]) = .next t ∧ t.acc ≠ (at' 0#32 [.reset]).acc :=
  ⟨_, rfl, by decide⟩
theorem witness_ReturnDepends : Instr.buildFinish ≠ .crcFinal ∧ (at' 0#32 []).acc = (at' 0#32 [.reset]).acc := by decide
theorem witness_AllButUpdate : (∀ b, Instr.crcInit ≠ .crcUpdate b) ∧ ∃ t, exec .crcInit (at' 0#32 []) = .next t :=
  ⟨by simp, _, rfl⟩
theorem witness_StepKeeps : State.reset.completionWellFormed = true ∧ ∃ t, step State.reset = .next t := ⟨rfl, _, rfl⟩
theorem witness_CrcBitStep : (0x80000001#32).getLsbD 0 = true ∧ (0xFFFFFFFE#32).getLsbD 0 = false := by decide
theorem witness_CrcUpdate_kind : (Operand.int 256).format ≠ .b := by decide
theorem witness_CrcFinal : State.reset.acc = 0xFFFFFFFF#32 ∧ ∃ t, exec .crcFinal State.reset = .next t := ⟨rfl, _, rfl⟩
theorem witness_SerialCrc :
    (at' 0xFFFFFFFF#32 [updateRequest 0x31#8, finalRequest, .reset]).inbox =
      [0x31#8].map updateRequest ++ finalRequest :: [.reset] := by rfl
theorem witness_SecondSerialCrc :
    (at' 0xFFFFFFFF#32 [updateRequest 0x31#8, finalRequest, updateRequest 0x32#8, finalRequest]).inbox =
      [0x31#8].map updateRequest ++ finalRequest :: ([0x32#8].map updateRequest ++ finalRequest :: []) := by rfl
theorem witness_Interleaved : ∀ e ∈ [updateRequest 0x01#8, .request (.command 0x22#8 (.bytes (zeros 17))),
    .request (.command 0x99#8 .none)], e ≠ .reset ∧ e ≠ .request (.command 0x10#8 .none) := by decide
theorem witness_CrcField : ([0x72, 0xD6, 0xE7, 0xBA] : Bytes).length = 4 := by decide
theorem witness_sector_bounds : ((0 : Int) ≤ 0 ∧ (0 : Int) ≤ 255) ∧ ((0 : Int) ≤ 255 ∧ (255 : Int) ≤ 255) ∧
    ((-1 : Int) < 0 ∨ (255 : Int) < -1) ∧ ((256 : Int) < 0 ∨ (255 : Int) < 256) := by decide
theorem witness_chunk_bounds : (zeros 0).length ≤ 16 ∧ (zeros 16).length ≤ 16 ∧ 16 < (zeros 17).length := by decide
theorem witness_DataFrameHides : ([0x20#8] : Bytes).length + 15 ≤ 16 := by decide
theorem witness_VerifySize : (zeros 21).length = 21 ∧ (zeros 20).length ≠ 21 ∧ (zeros 22).length ≠ 21 := by decide
theorem witness_CheckFrame_badLength : (zeros 20).length ≠ 21 := by decide
theorem witness_CheckFrame_badCrc : (zeros 21).length = 21 ∧ (zeros 21).drop 17 ≠ leBytes (crc32 ((zeros 21).take 17)) := by
  decide +kernel
theorem witness_CheckFrame_typed : (0x05#8 :: zeros 16 ++ [0x31, 0x1D, 0x41, 0x3D]).length = 21 ∧
    (0x05#8 :: zeros 16 ++ [0x31, 0x1D, 0x41, 0x3D]).drop 17 =
      leBytes (crc32 ((0x05#8 :: zeros 16 ++ [0x31, 0x1D, 0x41, 0x3D]).take 17)) := by decide +kernel
theorem witness_CheckFrameAccepts : checkFrame (sealFrame .data (zeros 16)) = .valid .data (zeros 16) := by decide +kernel
theorem witness_EveryFrame : ∃ t c f, step (at' 0#32 [.request (.command 0x23#8 .none)]) = .next t ∧ t.completion = some c ∧
    c.result = some (.frame f) := ⟨_, _, _, rfl, rfl, rfl⟩
theorem witness_OneChangedByte : checkFrame (sealFrame .finish (zeros 16)) = .valid .finish (zeros 16) ∧ 20 < 21 ∧
    (0x00#8 : Byte) ≠ (sealFrame .finish (zeros 16)).getD 20 0 := by decide +kernel
theorem witness_NackTaxonomy : (0#8 : Byte) = 0#8 ∧ 6 ≤ (6#8 : Byte).toNat ∧ 6 ≤ (255#8 : Byte).toNat := by decide
theorem witness_HostSendsNext : Safety.hostKeepsDuties (.defaults 20) eraseFlow = true ∧
    eraseFlow = [⟨0, .clearBuffers⟩] ++ ⟨1, .sendCommand (sealFrame .cmdErase (sectorPayload 7))⟩ ::
      ⟨50, .gotReply [0xAA#8] 0⟩ :: eraseFlow.drop 3 := by decide +kernel
theorem witness_HostSendsNext_nack : Safety.hostKeepsDuties (.defaults 20)
    (eraseFlow.take 2 ++ [⟨50, .gotReply [0x55#8, 0x02#8] 20⟩, ⟨60, .clearBuffers⟩]) = true ∧
    interpretReply [0x55#8, 0x02#8] ≠ .ack := by decide +kernel

/-- The erase flow with its FINISH, then a new flow: both of HostWaitsAfterEveryAck's gaps, within a flow and across two. -/
theorem witness_HostWaits_withinFlow : Safety.hostKeepsDuties (.defaults 20)
      ([⟨0, .clearBuffers⟩] ++ ⟨1, .sendCommand (sealFrame .cmdErase (sectorPayload 7))⟩ :: ⟨50, .gotReply [0xAA#8] 0⟩ ::
        ([] ++ ⟨550, .sendFinish (sealFrame .finish (zeros 16))⟩ :: [])) = true ∧
    Safety.typeOfFrame (sealFrame .cmdErase (sectorPayload 7)) = some .cmdErase ∧ interpretReply [0xAA#8] = .ack := by
  decide +kernel
theorem witness_HostWaits_acrossFlows : Safety.hostKeepsDuties (.defaults 20)
      (eraseFlow.take 3 ++ ⟨550, .sendFinish (sealFrame .finish (zeros 16))⟩ :: ⟨600, .gotReply [0xAA#8] 0⟩ ::
        ([⟨610, .clearBuffers⟩] ++ ⟨800, .sendCommand (sealFrame .cmdWrite (sectorPayload 7))⟩ :: [])) = true ∧
    (Safety.HostAct.sendFinish (sealFrame .finish (zeros 16))).isSend = true ∧
    Safety.HostAct.clearBuffers.isSend = false := by decide +kernel
theorem witness_HostWaits_write : Safety.hostKeepsDuties (.defaults 20)
      ([⟨0, .clearBuffers⟩] ++ ⟨1, .sendCommand (sealFrame .cmdWrite (sectorPayload 7))⟩ :: ⟨50, .gotReply [0xAA#8] 0⟩ ::
        ([] ++ ⟨1050, .sendChunk 1 (sealFrame .data (zeros 16))⟩ :: [])) = true ∧
    Safety.typeOfFrame (sealFrame .cmdWrite (sectorPayload 7)) = some .cmdWrite := by decide +kernel
theorem witness_StepKeepsFinalAcc : finalAcc (at' 0#32 [.reset, updateRequest 0x01#8]) = 0x5AFA20E4#32 ∧
    ∃ t, step (at' 0#32 [.reset, updateRequest 0x01#8]) = .next t := ⟨by decide +kernel, _, rfl⟩

end Sys2Proof.Tests
end

section
/-! PROOFS. What an instruction returns, said uniformly over all states (R9, R21, R25). -/

namespace Sys2Proof.Machine

/-- A CMD builder decides between frame and error by its sector alone (R126, R127). -/
theorem buildCmd_same_completion (t : MessageType) (n : Int) :
    ∃ c, ∀ s, buildCmd t n s = .next (setCompletion (some c) s) := by
  cases h : validSector n with
  | true => exact ⟨_, buildCmd_valid h⟩
  | false => exact ⟨_, buildCmd_invalid h⟩

/-- BUILD_DATA decides between frame and error by its chunk's length alone (R128). -/
theorem execBuildData_same_completion (chunk : Bytes) :
    ∃ c, ∀ s, execBuildData chunk s = .next (setCompletion (some c) s) := by
  by_cases h : chunk.length > Config.maxChunk
  · exact ⟨_, fun _ => if_pos h⟩
  · exact ⟨_, fun _ => if_neg h⟩

/-- Every instruction but CRC_FINAL has one completion for all states: the completion is chosen before the state is. -/
theorem exec_same_completion {i : Instr} (hi : i ≠ .crcFinal) :
    ∃ c, ∀ s, exec i s = .next (setCompletion (some c) (writeAcc (accAfter i s.acc) s)) := by
  cases i with
  | crcFinal => exact absurd rfl hi
  | buildCmdWrite n => exact buildCmd_same_completion .cmdWrite n
  | buildCmdErase n => exact buildCmd_same_completion .cmdErase n
  | buildData chunk => exact execBuildData_same_completion chunk
  | _ => exact ⟨⟨.ok, _⟩, fun _ => rfl⟩

/-- CRC_FINAL returns the inverted ACC (R107). -/
theorem exec_crcFinal (s : State) :
    exec .crcFinal s = .next (setCompletion (some ⟨.ok, some (.word32 (crcFinalize s.acc))⟩) s) := rfl

/-- An instruction's completion is a function of ACC, and a constant one unless the instruction is CRC_FINAL. -/
theorem exec_completion_of_acc (i : Instr) :
    ∃ f : Word32 → Completion, (i ≠ .crcFinal → ∀ a b, f a = f b) ∧
      ∀ s, exec i s = .next (setCompletion (some (f s.acc)) (writeAcc (accAfter i s.acc) s)) := by
  by_cases hi : i = .crcFinal
  · subst hi
    exact ⟨fun a => ⟨.ok, some (.word32 (crcFinalize a))⟩, fun h => absurd rfl h, exec_crcFinal⟩
  · obtain ⟨c, hc⟩ := exec_same_completion hi
    exact ⟨fun _ => c, fun _ _ _ => rfl, hc⟩

/-- Settles O22: completion and new ACC are functions of the old ACC (`exec_completion_of_acc`, `accAfter`), the first constant
but for CRC_FINAL, the second constant for CRC_INIT. -/
theorem returnDependsOnOperandsAndAccAndOnlyFinalReturnsAcc :
    Obligations.ReturnDependsOnOperandsAndAccAndOnlyFinalReturnsAcc := by
  intro i s u
  obtain ⟨f, hconst, hexec⟩ := exec_completion_of_acc i
  refine ⟨_, _, hexec s, hexec u, fun hi => ?_, fun hacc => ?_, fun hinit => ?_⟩
  · exact congrArg some (hconst hi s.acc u.acc)
  · simp [hacc]
  · subst hinit
    rfl

end Sys2Proof.Machine
end

section
/-! PROOFS. Which inputs write ACC, and what a step and a whole run leave in it (R20, R21, R51, R190). -/

namespace Sys2Proof

/-- A request that decodes is the encoding of the instruction it decodes to. -/
theorem encode_of_decode {r : Request} {i : Instr} (h : decode r = .ok i) : encode i = r := by
  cases r with
  | command opcode operand =>
    obtain ⟨hencode, -⟩ := decodeCommand_ok h
    exact hencode
  | packet s =>
    obtain ⟨t, payload, crc, -, rfl, rfl⟩ := decodePacket_ok h
    exact encode_packetInstr t payload crc
  | reply s =>
    cases h
    exact encode_decodeReply s

theorem decode_tableRequest {nbits w : Nat} {i : Instr} (h : decodeTableWord nbits w = some i) :
    decode (tableRequest nbits w) = .ok i := by
  unfold decodeTableWord at h
  split at h
  · next hdecode =>
    cases h
    exact hdecode
  · cases h

end Sys2Proof

namespace Sys2Proof.Machine

open Sys2Proof.Certificates

/-- Every instruction but CRC_INIT and CRC_UPDATE keeps ACC (R21). -/
theorem accAfter_of_not_writer {i : Instr} (hinit : i ≠ .crcInit) (hupdate : ∀ b, i ≠ .crcUpdate b) (a : Word32) :
    accAfter i a = a := by
  cases i with
  | crcInit => exact absurd rfl hinit
  | crcUpdate b => exact absurd rfl (hupdate b)
  | _ => rfl

/-- Every request but those of CRC_INIT and CRC_UPDATE keeps ACC, one that names no instruction among them (R63). -/
theorem accAfterRequest_of_not_writer {r : Request} (hinit : r ≠ .command 0x10#8 .none)
    (hupdate : ∀ b, r ≠ .command 0x11#8 (.byte b)) (a : Word32) : accAfterRequest r a = a := by
  unfold accAfterRequest
  cases h : decode r with
  | error e => rfl
  | ok i =>
    have hr : encode i = r := encode_of_decode h
    refine accAfter_of_not_writer ?_ ?_ a
    · rintro rfl
      exact hinit hr.symm
    · rintro b rfl
      exact hupdate b hr.symm

/-- ACC after one input. -/
def accAfterEvent (a : Word32) : Event → Word32
  | .reset => Config.crcInit
  | .request r => accAfterRequest r a

@[simp] theorem accAfterEvent_reset (a : Word32) : accAfterEvent a .reset = Config.crcInit := rfl

@[simp] theorem accAfterEvent_crcInit (a : Word32) :
    accAfterEvent a (.request (.command 0x10#8 .none)) = Config.crcInit := rfl

@[simp] theorem accAfterEvent_updateRequest (a : Word32) (b : Byte) :
    accAfterEvent a (updateRequest b) = crcAbsorb a b := rfl

/-- Every input but a reset, a CRC_INIT and a CRC_UPDATE keeps ACC (R21, R190). -/
theorem accAfterEvent_of_not_writer {e : Event} (hreset : e ≠ .reset) (hinit : e ≠ .request (.command 0x10#8 .none))
    (hupdate : ∀ b, e ≠ updateRequest b) (a : Word32) : accAfterEvent a e = a := by
  cases e with
  | reset => exact absurd rfl hreset
  | request r =>
    exact accAfterRequest_of_not_writer (fun h => hinit (congrArg Event.request h))
      (fun b h => hupdate b (congrArg Event.request h)) a

theorem eq_updateRequest_of_updateByte {e : Event} {b : Byte} (h : updateByte e = some b) : e = updateRequest b := by
  unfold updateByte at h
  split at h
  · split at h
    · next hopcode =>
      cases h
      rw [hopcode, updateRequest]
    · cases h
  · cases h

theorem accAfterEvent_of_updateByte_some {e : Event} {b : Byte} (h : updateByte e = some b) (a : Word32) :
    accAfterEvent a e = crcAbsorb a b := by
  rw [eq_updateRequest_of_updateByte h, accAfterEvent_updateRequest]

theorem accAfterEvent_of_updateByte_none {e : Event} (hreset : e ≠ .reset)
    (hinit : e ≠ .request (.command 0x10#8 .none)) (h : updateByte e = none) (a : Word32) :
    accAfterEvent a e = a := by
  refine accAfterEvent_of_not_writer hreset hinit ?_ a
  rintro b rfl
  cases h

/-- What ACC comes to is the model's own effect of each input, in order. -/
theorem finalAcc_eq_foldl (s : State) : finalAcc s = s.inbox.foldl accAfterEvent s.acc := by
  unfold finalAcc
  congr 1
  funext a e
  split
  · next h =>
    obtain rfl | rfl := h
    · exact (accAfterEvent_reset a).symm
    · exact (accAfterEvent_crcInit a).symm
  · next h =>
    obtain ⟨hreset, hinit⟩ := not_or.mp h
    split
    · next hb => exact (accAfterEvent_of_updateByte_some hb a).symm
    · next hb => exact (accAfterEvent_of_updateByte_none hreset hinit hb a).symm

theorem finalAcc_of_inbox_nil {s : State} (h : s.inbox = []) : finalAcc s = s.acc := by
  simp [finalAcc_eq_foldl, h]

theorem finalAcc_of_inbox_cons {s : State} {e : Event} {rest : List Event} (h : s.inbox = e :: rest) :
    finalAcc s = rest.foldl accAfterEvent (accAfterEvent s.acc e) := by
  simp [finalAcc_eq_foldl, h]

/-- A step with an input to take answers, with that input gone and its effect in ACC (R20, R51). -/
theorem step_of_inbox_cons {s : State} {e : Event} {rest : List Event} (h : s.inbox = e :: rest) :
    ∃ t, step s = .next t ∧ t.inbox = rest ∧ t.acc = accAfterEvent s.acc e := by
  cases e with
  | reset => exact ⟨_, step_reset h, rfl, rfl⟩
  | request r =>
    obtain ⟨c, -, hperform⟩ := perform_form r (setInbox rest s)
    exact ⟨_, (step_request h).trans hperform, rfl, rfl⟩

/-- A step moves the oldest input's effect from the inputs into ACC, so the final ACC stays. -/
theorem step_finalAcc {s t : State} (h : step s = .next t) : finalAcc t = finalAcc s := by
  match hi : s.inbox with
  | [] =>
    rw [step_nil hi] at h
    cases h
    rfl
  | e :: rest =>
    obtain ⟨u, hstep, hinbox, hacc⟩ := step_of_inbox_cons hi
    cases hstep.symm.trans h
    rw [finalAcc_eq_foldl t, hinbox, hacc, finalAcc_of_inbox_cons hi]

/-- A run of one step per input takes them all and ends with the final ACC. -/
theorem run_inbox (s : State) :
    ∃ t : State, Host.Core.run Sys2Proof.core s.inbox.length s = .next t ∧ t.inbox = [] ∧ t.acc = finalAcc s := by
  induction hi : s.inbox generalizing s with
  | nil => exact ⟨s, rfl, hi, (finalAcc_of_inbox_nil hi).symm⟩
  | cons e rest ih =>
    obtain ⟨u, hstep, hinbox, -⟩ := step_of_inbox_cons hi
    obtain ⟨t, hrun, hempty, hacc⟩ := ih u hinbox
    exact ⟨t, (run_succ rest.length hstep).trans hrun, hempty, hacc.trans (step_finalAcc hstep)⟩

/-- Without reset and CRC_INIT, the inputs' effect on ACC is that of the CRC_UPDATE bytes among them. -/
theorem foldl_accAfterEvent_eq_updates (es : List Event) (a : Word32)
    (h : ∀ e ∈ es, e ≠ .reset ∧ e ≠ .request (.command 0x10#8 .none)) :
    es.foldl accAfterEvent a = (es.filterMap updateByte).foldl crcAbsorb a := by
  induction es generalizing a with
  | nil => rfl
  | cons e es ih =>
    obtain ⟨⟨hreset, hinit⟩, hes⟩ := List.forall_mem_cons.mp h
    rw [List.foldl_cons, ih _ hes]
    cases hb : updateByte e with
    | none => rw [List.filterMap_cons_none hb, accAfterEvent_of_updateByte_none hreset hinit hb]
    | some b => rw [List.filterMap_cons_some hb, accAfterEvent_of_updateByte_some hb, List.foldl_cons]

/-- Settles O58: the oldest input's effect, folded in before the step, is in ACC after it (`step_finalAcc`). -/
theorem stepKeepsFinalAcc : Obligations.StepKeepsFinalAcc := by
  intro s t v hv h
  exact (step_finalAcc h).trans hv

/-- Settles O19, by `exec_spec`: the inputs stay under every instruction, and all but the two keep ACC. -/
theorem otherInstructionsLeaveAccAndInputs : Obligations.OtherInstructionsLeaveAccAndInputs := by
  intro i s t hinit hupdate h
  obtain ⟨hacc, hinbox, -⟩ := exec_spec h
  exact ⟨hacc.trans (accAfter_of_not_writer hinit hupdate s.acc), hinbox⟩

/-- Settles O21: an idle step keeps ACC, and an input that is none of the three writers does too. -/
theorem accChangesOnlyByItsWriters : Obligations.AccChangesOnlyByItsWriters := by
  intro s t h hne
  match hi : s.inbox with
  | [] =>
    rw [step_nil hi] at h
    cases h
    exact absurd rfl hne
  | e :: rest =>
    obtain ⟨u, hstep, -, hacc⟩ := step_of_inbox_cons hi
    cases hstep.symm.trans h
    refine ⟨e, rest, rfl, ?_⟩
    by_contra hnot
    push Not at hnot
    obtain ⟨hreset, hinit, hupdate⟩ := hnot
    exact hne (hacc.trans (accAfterEvent_of_not_writer hreset hinit hupdate s.acc))

/-- Settles O36: the run ends with the final ACC (`run_inbox`), to which only the CRC_UPDATE bytes contribute. -/
theorem interleavedCommandsLeaveSerialCrc : Obligations.InterleavedCommandsLeaveSerialCrc := by
  intro s h
  obtain ⟨t, hrun, hempty, hacc⟩ := run_inbox s
  refine ⟨t, hrun, hempty, ?_⟩
  rw [hacc, finalAcc_eq_foldl, foldl_accAfterEvent_eq_updates s.inbox s.acc h]

/-- Settles O10: the step performs the oldest request, and performing it is running what it decodes to. -/
theorem stepRunsTheDecodedInstruction : Obligations.StepRunsTheDecodedInstruction := by
  intro s r rest i hinbox hdecode
  exact (step_request hinbox).trans (perform_ok hdecode (after rest s))

/-- Settles O11: the placed word's request is the oldest input, and taking it gives the state back. -/
theorem fetchWordRunsNext : Obligations.FetchWordRunsNext := by
  intro s nbits w i h
  have hinbox : (s.withFetchWord nbits w).inbox = .request (tableRequest nbits w) :: s.inbox := rfl
  exact (step_request hinbox).trans (perform_ok (decode_tableRequest h) s)

/-- Settles O12: a step without input is `idle`. -/
theorem stepWithoutInputLeavesAcc : Obligations.StepWithoutInputLeavesAcc := by
  intro s h
  obtain ⟨hacc, hinbox, hcompletion⟩ := idle_spec s
  exact ⟨idle s, step_nil h, hacc, hinbox.trans h, hcompletion⟩

end Sys2Proof.Machine
end

section
/-! PROOFS. Issuing an instruction twice (R49), taking one input (R51), and the byte order of a CRC field (R42). -/

namespace Sys2Proof

open Sys2Proof.Machine Sys2Proof.Certificates

/-- The bits `start` to `start + 7` of a word are its value divided by `2 ^ start`, cut to a byte. -/
theorem extractLsb'_eq_ofNat_div (v : Word32) (start : Nat) :
    v.extractLsb' start 8 = BitVec.ofNat 8 (v.toNat / 2 ^ start) := by
  rw [BitVec.extractLsb', Nat.shiftRight_eq_div_pow]

/-- Reducing modulo 256 first does not change the byte of a number. -/
theorem byte_ofNat_mod (n : Nat) : BitVec.ofNat 8 (n % 256) = BitVec.ofNat 8 n := by
  apply BitVec.eq_of_toNat_eq
  rw [BitVec.toNat_ofNat, BitVec.toNat_ofNat]
  exact Nat.mod_mod n 256

/-- The bytes by bit positions are the bytes by arithmetic (R42). -/
theorem le32_eq_leBytes (v : Word32) : le32 v = leBytes v := by
  simp only [le32, leBytes, extractLsb'_eq_ofNat_div, byte_ofNat_mod]
  norm_num

theorem fromLe32_leBytes (v : Word32) : fromLe32 (leBytes v) = v := by
  rw [← le32_eq_leBytes, fromLe32_le32]

/-- The last four bytes of a packet are its CRC field (R64). -/
theorem packetBytes_drop_crcOffset (t : MessageType) {payload : Bytes} (crc : Word32)
    (h : payload.length = Config.payloadLen) :
    (packetBytes t payload crc).drop Config.crcOffset = le32 crc :=
  List.drop_left' (by rw [List.length_cons, h])

/-- Settles O38: the model's `le32` is the little-endian form by arithmetic, and `fromLe32` is its inverse. -/
theorem crcFieldIsLittleEndian : Obligations.CrcFieldIsLittleEndian := by
  refine ⟨fun t payload crc h => ?_, le32_eq_leBytes, fromLe32_leBytes, fun s h => le32_fromLe32 h⟩
  exact (packetBytes_drop_crcOffset t crc h).trans (le32_eq_leBytes crc)

end Sys2Proof

namespace Sys2Proof.Machine

/-- Settles O23: an instruction that keeps ACC sees the same ACC and inputs again, and CRC_INIT reads neither. CRC_UPDATE with
byte 0x01 advances ACC from its reset value twice. -/
theorem allButUpdateAreIdempotent : Obligations.AllButUpdateAreIdempotent := by
  refine ⟨fun i s t hupdate h => ?_, 0x01#8, State.reset, _, _, rfl, rfl, by decide +kernel⟩
  by_cases hinit : i = .crcInit
  · subst hinit
    cases h
    rfl
  · obtain ⟨hacc, hinbox⟩ := otherInstructionsLeaveAccAndInputs i s t hinit hupdate h
    exact (exec_congr hacc hinbox).trans h

/-- Settles O15: a waiting step has no input to take, and any other takes the oldest one. -/
theorem stepTakesOldestInputOnly : Obligations.StepTakesOldestInputOnly := by
  intro s t h
  match hi : s.inbox with
  | [] =>
    rw [step_nil hi] at h
    cases h
    exact hi
  | e :: rest =>
    obtain ⟨u, hstep, hinbox, -⟩ := step_of_inbox_cons hi
    cases hstep.symm.trans h
    exact hinbox

end Sys2Proof.Machine
end

section
/-! PROOFS. The decoder and the encoder, against each other and against the opcode map (R60 to R73). -/

namespace Sys2Proof

open Sys2Proof.Machine Sys2Proof.Certificates

/-- Every request decodes to an instruction that its row's encoding admits, if it decodes at all. -/
theorem wellFormed_of_decode {r : Request} {i : Instr} (h : decode r = .ok i) : i.wellFormed = true := by
  cases r with
  | command opcode operand =>
    obtain ⟨-, hwf⟩ := decodeCommand_ok h
    exact hwf
  | packet s =>
    obtain ⟨t, payload, crc, hlength, rfl, -⟩ := decodePacket_ok h
    rw [wellFormed_packetInstr, hlength, beq_self_eq_true]
  | reply s =>
    cases h
    exact wellFormed_decodeReply s

/-- Settles O9: both halves go by the three kinds of request. -/
theorem encodeOfDecodeIsIdentity : Obligations.EncodeOfDecodeIsIdentity :=
  fun _ _ h => ⟨wellFormed_of_decode h, encode_of_decode h⟩

/-- Settles O8, row by row: the commands and ACK, UNRECOGNIZED and NO_RESPONSE by their own opcode or first byte, the packets by
their fixed offsets, NACK by the presence of its code. -/
theorem decodeOfEncodeIsIdentity : Obligations.DecodeOfEncodeIsIdentity := by
  intro i
  cases i with
  | crcInit => exact Laws.RoundTrip.crcInit
  | crcUpdate b => exact Laws.RoundTrip.crcUpdate b
  | crcFinal => exact Laws.RoundTrip.crcFinal
  | crc32 s => exact Laws.RoundTrip.crc32 s
  | buildCmdWrite n => exact Laws.RoundTrip.buildCmdWrite n
  | buildCmdErase n => exact Laws.RoundTrip.buildCmdErase n
  | buildData c => exact Laws.RoundTrip.buildData c
  | buildFinish => exact Laws.RoundTrip.buildFinish
  | verifySize s => exact Laws.RoundTrip.verifySize s
  | checkFrame s => exact Laws.RoundTrip.checkFrame s
  | interpret r => exact Laws.RoundTrip.interpret r
  | pktCmdWrite payload crc => exact Laws.RoundTrip.pktCmdWrite payload crc
  | pktCmdErase payload crc => exact Laws.RoundTrip.pktCmdErase payload crc
  | pktData payload crc => exact Laws.RoundTrip.pktData payload crc
  | pktFinish payload crc => exact Laws.RoundTrip.pktFinish payload crc
  | replyAck rest => exact Laws.RoundTrip.replyAck rest
  | replyNack code rest => exact Laws.RoundTrip.replyNack code rest
  | replyUnrecognized b rest => exact Laws.RoundTrip.replyUnrecognized b rest
  | replyNoResponse => exact Laws.RoundTrip.replyNoResponse

/-- The encoder's commands are rows of R62's map, each with an operand of its row's format. -/
theorem mem_opcodeFormats_of_encode {i : Instr} {op : Byte} {o : Operand} (h : encode i = .command op o) :
    (op, o.format) ∈ opcodeFormats := by
  cases i with
  | replyNack code rest => cases code <;> cases h
  | _ => cases h <;> simp [opcodeFormats, Operand.format]

/-- A command outside R62's map, by its opcode or by its operand's kind, does not decode (R63). -/
theorem decodeCommand_of_not_mem {op : Byte} {o : Operand} (h : (op, o.format) ∉ opcodeFormats) :
    decodeCommand op o = .error (.illegalOpcode op) ∨ decodeCommand op o = .error (.wrongOperandKind op) := by
  cases hd : decodeCommand op o with
  | ok i =>
    obtain ⟨hencode, -⟩ := decodeCommand_ok hd
    exact absurd (mem_opcodeFormats_of_encode hencode) h
  | error e =>
    obtain rfl | rfl := decodeCommand_error hd
    · exact .inl rfl
    · exact .inr rfl

/-- A command outside R62's map raises ILLEGAL_COMMAND with its opcode byte, in either case of R63. -/
theorem perform_of_not_mem {op : Byte} {o : Operand} (h : (op, o.format) ∉ opcodeFormats) (s : State) :
    perform (.command op o) s = raise (.illegalCommand op) s := by
  obtain hd | hd := decodeCommand_of_not_mem h <;> simp only [perform, decode, hd, rejectRequest]

/-- Settles O3: the step performs the command on the state without it, which raises (`perform_of_not_mem`); the 245 are counted. -/
theorem illegalCommandCompletesWithoutEffect : Obligations.IllegalCommandCompletesWithoutEffect := by
  refine ⟨fun op o s rest hinbox h => ?_, by decide +kernel⟩
  exact (step_request hinbox).trans (perform_of_not_mem h (after rest s))

/-- A packet's bytes, with the CRC field's bytes by arithmetic, decode to the row of the message type. -/
theorem decode_packet_leBytes (t : MessageType) {payload : Bytes} (crc : Word32) (h : payload.length = 16) :
    decode (.packet (typeByte t :: payload ++ leBytes crc)) = .ok (packetInstr t payload crc) := by
  rw [← le32_eq_leBytes]
  exact decodePacket_packetBytes t crc h

/-- Settles O4: one packet lemma at the four message types. -/
theorem wirePacketFieldsDecodeByOffset : Obligations.WirePacketFieldsDecodeByOffset :=
  fun _ crc h => ⟨decode_packet_leBytes .cmdWrite crc h, decode_packet_leBytes .cmdErase crc h,
    decode_packet_leBytes .data crc h, decode_packet_leBytes .finish crc h⟩

/-- A byte encodes a message type exactly when it is one of R65's four (R67: the others are reserved). -/
theorem exists_typeOfByte_iff (b : Byte) :
    (∃ t, typeOfByte b = some t) ↔ b = 0x01#8 ∨ b = 0x02#8 ∨ b = 0x03#8 ∨ b = 0x04#8 := by
  constructor
  · rintro ⟨t, h⟩
    rw [← typeByte_of_typeOfByte h]
    cases t <;> decide
  · rintro (rfl | rfl | rfl | rfl)
    exacts [⟨.cmdWrite, rfl⟩, ⟨.cmdErase, rfl⟩, ⟨.data, rfl⟩, ⟨.finish, rfl⟩]

/-- What the packet decoder asks of its bytes: R64's length and a type byte that is not reserved. -/
theorem exists_decodePacket_iff (f : Bytes) :
    (∃ i, decodePacket f = .ok i) ↔ f.length = Config.packetLen ∧ ∃ t, typeOfByte (byteAt f Config.typeOffset) = some t := by
  constructor
  · rintro ⟨i, h⟩
    obtain ⟨t, payload, crc, hlength, -, rfl⟩ := decodePacket_ok h
    exact ⟨by rw [packetBytes_length, hlength], t, by rw [packet_type, typeOfByte_typeByte]⟩
  · rintro ⟨hlength, t, ht⟩
    exact ⟨_, by simp only [decodePacket, hlength, if_true, ht]; rfl⟩

/-- Settles O5: the decoder's two conditions, with the type byte's four values written out. -/
theorem packetDecodesExactlyWhenTypedAndSized : Obligations.PacketDecodesExactlyWhenTypedAndSized :=
  fun f => (exists_decodePacket_iff f).trans (and_congr_right' (exists_typeOfByte_iff (byteAt f Config.typeOffset)))

/-- Settles O1: each row of the map is an arm of `decodeCommand`, which passes the operand on whole. -/
theorem opcodeMapDecodesEveryCommand : Obligations.OpcodeMapDecodesEveryCommand :=
  ⟨rfl, fun _ => rfl, rfl, fun _ => rfl, fun _ => rfl, fun _ => rfl, fun _ => rfl, rfl, fun _ => rfl, fun _ => rfl,
    fun _ => rfl⟩

/-- An opcode's bits 7..4 are its value divided by 16. -/
theorem opcode_upperHalf_eq_iff (op : Byte) (k : BitVec 4) : op.extractLsb' 4 4 = k ↔ op.toNat / 16 = k.toNat := by
  have hlt : op.toNat / 16 < 2 ^ 4 := by have := op.isLt; omega
  rw [← BitVec.toNat_inj, BitVec.extractLsb'_toNat, Nat.shiftRight_eq_div_pow, Nat.mod_eq_of_lt hlt]

/-- R60: the upper half of the opcodes of a unit. -/
def BlockUnit.upperHalf : BlockUnit → Nat
  | .crcEngine => 1
  | .packetFramer => 2
  | .responseDecoder => 3

/-- An opcode names a unit exactly when its upper half is the unit's (R60). -/
theorem unitOfOpcode_eq_some_iff (op : Byte) (u : BlockUnit) :
    unitOfOpcode op = some u ↔ op.toNat / 16 = u.upperHalf := by
  simp only [unitOfOpcode, opcode_upperHalf_eq_iff]
  split_ifs with hcrc hframer hdecoder
  · rw [hcrc]; cases u <;> decide
  · rw [hframer]; cases u <;> decide
  · rw [hdecoder]; cases u <;> decide
  · refine iff_of_false (by simp) ?_
    cases u with
    | crcEngine => exact hcrc
    | packetFramer => exact hframer
    | responseDecoder => exact hdecoder

/-- Settles O2: one lemma at the three units, bits 3..0 as a remainder, and the map's rows one by one. -/
theorem opcodeUpperHalfNamesUnit : Obligations.OpcodeUpperHalfNamesUnit := by
  refine ⟨fun op => unitOfOpcode_eq_some_iff op .crcEngine, fun op => unitOfOpcode_eq_some_iff op .packetFramer,
    fun op => unitOfOpcode_eq_some_iff op .responseDecoder, fun op => BitVec.extractLsb'_toNat .., fun op f hmem => ?_⟩
  have hrows : ∀ row ∈ opcodeFormats, (unitOfOpcode row.1).isSome := by decide
  exact hrows (op, f) hmem

/-- A first byte that is neither ACK's nor NACK's selects UNRECOGNIZED (R71). -/
theorem decodeReply_other {b : Byte} (hack : b ≠ Config.replyAck) (hnack : b ≠ Config.replyNack) (rest : Bytes) :
    decodeReply (b :: rest) = .replyUnrecognized b rest := by
  simp only [decodeReply, hack, hnack, if_false]

/-- Settles O6, by the five forms of a reply. -/
theorem replyRowFollowsFirstByte : Obligations.ReplyRowFollowsFirstByte :=
  ⟨rfl, fun _ => rfl, rfl, fun _ _ => rfl, fun _ rest hack hnack => congrArg Except.ok (decodeReply_other hack hnack rest)⟩

/-- Settles O7, by running the decoder. -/
theorem writtenOutWordsDecode : Obligations.WrittenOutWordsDecode :=
  ⟨by decide, by decide, by decide, by decide, by decide, rfl, rfl⟩

/-- Settles O55, by running the speller. -/
theorem assemblerSpellingExamplesOfEachFormat : Obligations.AssemblerSpellingExamplesOfEachFormat := by
  refine ⟨?_, ?_, ?_, ?_, ?_, ?_⟩ <;> decide +kernel

end Sys2Proof
end

section
/-! PROOFS. What the steps and the data rows hand to the host: the completion's shape (R75), trailing zeros of a chunk (R73), and
the verdicts and outcomes of the packet and reply rows (R131, R152). -/

namespace Sys2Proof.Machine

open Sys2Proof.Certificates

theorem completionWellFormed_of_none {s : State} (h : s.completion = none) : s.completionWellFormed = true := by
  rw [State.completionWellFormed, h]
  rfl

theorem completionWellFormed_of_some {s : State} {c : Completion} (h : s.completion = some c)
    (hc : c.wellFormed = true) : s.completionWellFormed = true := by
  rw [State.completionWellFormed, h]
  exact hc

/-- Settles O25: a step that waits or resets hands over nothing, and a performed request a well-formed completion; the old
completion plays no part, because no step keeps it. -/
theorem stepKeepsCompletionShape : Obligations.StepKeepsCompletionShape := by
  intro s t _ h
  obtain ⟨-, rfl⟩ | ⟨rest, -, rfl⟩ | ⟨r, rest, c, -, hc, hcompletion, -⟩ := step_cases h
  · exact completionWellFormed_of_none rfl
  · exact completionWellFormed_of_none rfl
  · exact completionWellFormed_of_some hcompletion hc

/-- Settles O24: nothing has completed at reset. -/
theorem resetCompletionHasItsShape : Obligations.ResetCompletionHasItsShape :=
  completionWellFormed_of_none reset_completion

/-- Zeros that fit are the zeros that padding would add (R128). -/
theorem pad16_append_zeros {c : Bytes} {k : Nat} (h : c.length + k ≤ 16) : pad16 (c ++ zeros k) = pad16 c := by
  have hk : k + (16 - (c.length + k)) = 16 - c.length := by omega
  simp only [pad16, zeros, List.append_assoc, List.length_append, List.length_replicate, Config.payloadLen,
    List.replicate_append_replicate, hk]

/-- BUILD_DATA of a chunk that fits returns the frame of the padded chunk (R128). -/
theorem execBuildData_of_le {chunk : Bytes} (h : chunk.length ≤ 16) (s : State) :
    execBuildData chunk s = complete (some (.frame (sealFrame .data (pad16 chunk)))) s :=
  if_neg (not_lt.mpr h)

/-- Settles O42: both chunks fit, and they have the same padded form. -/
theorem dataFrameHidesTrailingZeros : Obligations.DataFrameHidesTrailingZeros := by
  intro c k s h
  have hlong : (c ++ zeros k).length ≤ 16 := by rwa [List.length_append, zeros_length]
  have hshort : c.length ≤ 16 := by omega
  calc execBuildData (c ++ zeros k) s
      = complete (some (.frame (sealFrame .data (pad16 (c ++ zeros k))))) s := execBuildData_of_le hlong s
    _ = complete (some (.frame (sealFrame .data (pad16 c)))) s := by rw [pad16_append_zeros h]
    _ = execBuildData c s := (execBuildData_of_le hshort s).symm

/-- What handing over a packet with a 16-byte payload comes to: its type is known, so its CRC field decides (R131). -/
theorem checkPacket_eq (t : MessageType) {payload : Bytes} (crc : Word32) (h : payload.length = 16) (s : State) :
    checkPacket t payload crc s = .next (done s.acc (some (.frameCheck
      (if crc = crc32 (typeByte t :: payload) then .valid t payload else .invalid .badCrc))) s) := by
  rw [checkPacket, checkFrame_packetBytes t crc h]
  rfl

/-- Settles O50: the four rows are the check at their message types. -/
theorem wirePacketRowsCheckTheirCrc : Obligations.WirePacketRowsCheckTheirCrc :=
  fun _ crc s h => ⟨checkPacket_eq .cmdWrite crc h s, checkPacket_eq .cmdErase crc h s, checkPacket_eq .data crc h s,
    checkPacket_eq .finish crc h s⟩

/-- A reply of a first byte that is neither ACK's nor NACK's is reported with that byte (R152). -/
theorem execReplyUnrecognized_eq {b : Byte} (hack : b ≠ Config.replyAck) (hnack : b ≠ Config.replyNack) (rest : Bytes)
    (s : State) :
    execReplyUnrecognized b rest s = .next (done s.acc (some (.outcome (.unrecognized b))) s) := by
  rw [execReplyUnrecognized, interpretReply_other hack hnack]
  rfl

/-- Settles O53: each row's first bytes run through `interpretReply`; only UNRECOGNIZED needs its hypotheses for that. -/
theorem replyRowsGiveTheirOutcome : Obligations.ReplyRowsGiveTheirOutcome :=
  ⟨fun _ _ => rfl, fun _ => rfl, fun _ _ _ => rfl, fun _ rest s hack hnack => execReplyUnrecognized_eq hack hnack rest s,
    fun _ => rfl⟩

end Sys2Proof.Machine
end

section
/-! PROOFS. The CRC-32 engine (R101 to R110): one iteration bit by bit, absorbing bytes, the engine's commands, a byte-serial
sequence as a run, and the detection of one changed byte (R131). -/

namespace Sys2Proof.Machine

open Sys2Proof.Certificates

/-! ## One iteration, and several -/

/-- The polynomial's bit 31 is set, so the tested bit comes back as bit 31 (R101). -/
theorem crcBitStep_getLsbD_31 (a : Word32) : (crcBitStep a).getLsbD 31 = a.getLsbD 0 := by
  have hpoly : Config.crcPoly.getLsbD 31 = true := by decide
  rw [crcBitStep_getLsbD, BitVec.getLsbD_of_ge a 32 le_rfl, hpoly, Bool.and_true, Bool.false_xor]

/-- Settles O26: the two branches of an iteration, and bit 31 from the bits of its result. -/
theorem crcBitStepShiftsAndFolds : Obligations.CrcBitStepShiftsAndFolds :=
  ⟨fun _ => crcBitStep_low, fun _ => crcBitStep_high, crcBitStep_getLsbD_31⟩

/-- An iteration loses nothing: bit 31 of its result is the tested bit, and with it the folding is undone. -/
theorem crcBitStep_injective : Function.Injective crcBitStep := by
  intro a b h
  have hlow : a.getLsbD 0 = b.getLsbD 0 := by rw [← crcBitStep_getLsbD_31, h, crcBitStep_getLsbD_31]
  refine BitVec.eq_of_getLsbD_eq fun i _ => ?_
  cases i with
  | zero => exact hlow
  | succ i =>
    have hbit : (crcBitStep a).getLsbD i = (crcBitStep b).getLsbD i := by rw [h]
    rw [crcBitStep_getLsbD, crcBitStep_getLsbD, hlow] at hbit
    exact Bool.xor_left_inj.mp hbit

/-- A word whose bit 0 is a given one and whose other bits are clear. -/
def lowBit (c : Bool) : Word32 := if c then 1#32 else 0#32

@[simp] theorem lowBit_getLsbD_zero (c : Bool) : (lowBit c).getLsbD 0 = c := by
  cases c <;> rfl

@[simp] theorem lowBit_getLsbD_succ (c : Bool) (i : Nat) : (lowBit c).getLsbD (i + 1) = false := by
  cases c <;> simp [lowBit, BitVec.getLsbD_one]

/-- What is XORed into an iteration's input reaches the test by its low bit only; its other bits just shift. -/
theorem crcBitStep_xor (a w : Word32) :
    crcBitStep (a ^^^ w) = crcBitStep (a ^^^ lowBit (w.getLsbD 0)) ^^^ w >>> 1 := by
  refine BitVec.eq_of_getLsbD_eq fun i _ => ?_
  simp only [crcBitStep_getLsbD, BitVec.getLsbD_xor, BitVec.getLsbD_ushiftRight, lowBit_getLsbD_zero,
    lowBit_getLsbD_succ, Bool.xor_false, Nat.add_comm 1 i]
  exact Bool.xor_right_comm ..

theorem crcBitSteps_eq_iterate (n : Nat) (a : Word32) : crcBitSteps n a = crcBitStep^[n] a := by
  induction n generalizing a with
  | zero => rfl
  | succ n ih => exact ih (crcBitStep a)

/-- The last of `n + 1` iterations, where the defining equation `crcBitSteps_succ` splits off the first. -/
theorem crcBitSteps_succ_last (n : Nat) (a : Word32) : crcBitSteps (n + 1) a = crcBitStep (crcBitSteps n a) := by
  simp only [crcBitSteps_eq_iterate, Function.iterate_succ_apply']

theorem crcBitSteps_injective (n : Nat) : Function.Injective (crcBitSteps n) := by
  rw [funext (crcBitSteps_eq_iterate n)]
  exact crcBitStep_injective.iterate n

/-- `n` iterations in which bit `i` of a word is XORed into the low bit just before iteration `i` (R43). -/
def bitSerialSteps (n : Nat) (a w : Word32) : Word32 :=
  (List.range n).foldl (fun t i => crcBitStep (t ^^^ lowBit (w.getLsbD i))) a

theorem bitSerialSteps_succ (n : Nat) (a w : Word32) :
    bitSerialSteps (n + 1) a w = crcBitStep (bitSerialSteps n a w ^^^ lowBit (w.getLsbD n)) := by
  simp only [bitSerialSteps, List.range_succ, List.foldl_append, List.foldl_cons, List.foldl_nil]

/-- A word XORed in whole differs after `n` iterations from its bits entering one by one only by the bits yet to enter. -/
theorem crcBitSteps_xor (n : Nat) (a w : Word32) : crcBitSteps n (a ^^^ w) = bitSerialSteps n a w ^^^ w >>> n := by
  induction n with
  | zero => rfl
  | succ n ih =>
    have hbit : (w >>> n).getLsbD 0 = w.getLsbD n := BitVec.getLsbD_ushiftRight ..
    rw [crcBitSteps_succ_last, ih, crcBitStep_xor, hbit, bitSerialSteps_succ, BitVec.shiftRight_add]

/-! ## Absorbing and finalizing -/

theorem zext32_getLsbD {i : Nat} (b : Byte) (h : i < 8) : (zext32 b).getLsbD i = b.getLsbD i := by
  have hi : i < 32 := by omega
  rw [zext32, BitVec.getLsbD_setWidth, decide_eq_true hi, Bool.true_and]

theorem zext32_getLsbD_of_ge {i : Nat} (b : Byte) (h : 8 ≤ i) : (zext32 b).getLsbD i = false := by
  rw [zext32, BitVec.getLsbD_setWidth, BitVec.getLsbD_of_ge b i h, Bool.and_false]

theorem zext32_ushiftRight_eight (b : Byte) : zext32 b >>> 8 = 0#32 := by
  refine BitVec.eq_of_getLsbD_eq fun i _ => ?_
  rw [BitVec.getLsbD_ushiftRight, zext32_getLsbD_of_ge b (Nat.le_add_right 8 i), BitVec.getLsbD_zero]

theorem zext32_injective : Function.Injective zext32 := by
  intro b c h
  refine BitVec.eq_of_getLsbD_eq fun i hi => ?_
  rw [← zext32_getLsbD b hi, h, zext32_getLsbD c hi]

/-- A widened byte reaches only bits 7..0 of the accumulator (R102). -/
theorem xor_zext32_upperBits (a : Word32) (b : Byte) : (a ^^^ zext32 b).extractLsb' 8 24 = a.extractLsb' 8 24 := by
  refine BitVec.eq_of_getLsbD_eq fun i _ => ?_
  simp only [BitVec.getLsbD_extractLsb', BitVec.getLsbD_xor, zext32_getLsbD_of_ge b (Nat.le_add_right 8 i),
    Bool.xor_false]

theorem crcFinalize_eq_xor (a : Word32) : crcFinalize a = a ^^^ 0xFFFFFFFF#32 :=
  BitVec.xor_allOnes.symm

/-- Settles O27: the loop as iterates of one iteration; finalizing and crc32 are their definitions, with R5's constants. -/
theorem crcAbsorbAndFinalizeAsWritten : Obligations.CrcAbsorbAndFinalizeAsWritten :=
  ⟨fun a b => crcBitSteps_eq_iterate 8 (a ^^^ zext32 b), xor_zext32_upperBits, fun a => ⟨rfl, crcFinalize_eq_xor a⟩,
    crc32_eq⟩

/-- Settles O28: after eight iterations every bit of the byte has entered, so none is left to tell the two apart. -/
theorem byteEntersLeastSignificantBitFirst : Obligations.ByteEntersLeastSignificantBitFirst := by
  intro a b
  have hbits : ∀ t, ∀ i ∈ List.range 8,
      crcBitStep (t ^^^ lowBit ((zext32 b).getLsbD i)) = crcBitStep (t ^^^ lowBit (b.getLsbD i)) :=
    fun t i hi => by rw [zext32_getLsbD b (List.mem_range.mp hi)]
  calc crcAbsorb a b
      = bitSerialSteps 8 a (zext32 b) ^^^ zext32 b >>> 8 := crcBitSteps_xor 8 a (zext32 b)
    _ = bitSerialSteps 8 a (zext32 b) := by rw [zext32_ushiftRight_eight, BitVec.xor_zero]
    _ = _ := List.foldl_ext _ _ a hbits

theorem crcAbsorb_left_injective (b : Byte) : Function.Injective (crcAbsorb · b) :=
  fun _ _ h => (BitVec.xor_left_inj _).mp (crcBitSteps_injective 8 h)

theorem crcAbsorb_right_injective (a : Word32) : Function.Injective (crcAbsorb a) :=
  fun _ _ h => zext32_injective ((BitVec.xor_right_inj _).mp (crcBitSteps_injective 8 h))

theorem crcAbsorbAll_left_injective (s : Bytes) : Function.Injective (crcAbsorbAll · s) := by
  induction s with
  | nil => exact fun _ _ h => h
  | cons b s ih => exact ih.comp (crcAbsorb_left_injective b)

/-- A changed byte changes what the sequence leaves in the accumulator. -/
theorem eq_getD_of_crcAbsorbAll_set {s : Bytes} {k : Nat} (hk : k < s.length) (a : Word32) (b : Byte)
    (h : crcAbsorbAll a (s.set k b) = crcAbsorbAll a s) : b = s.getD k 0 := by
  induction s generalizing k a with
  | nil => exact absurd hk (Nat.not_lt_zero k)
  | cons c s ih =>
    cases k with
    | zero => exact crcAbsorb_right_injective a (crcAbsorbAll_left_injective s h)
    | succ k => exact ih (Nat.lt_of_succ_lt_succ hk) (crcAbsorb a c) h

theorem eq_getD_of_crc32_set {s : Bytes} {k : Nat} (hk : k < s.length) (b : Byte)
    (h : crc32 (s.set k b) = crc32 s) : b = s.getD k 0 :=
  eq_getD_of_crcAbsorbAll_set hk Config.crcInit b (Function.LeftInverse.injective crcFinalize_finalize h)

/-! ## One changed byte of a frame -/

/-- A frame that passes has R64's length and the CRC of its first 17 bytes in its CRC field. -/
theorem checkFrame_valid {f : Bytes} {t : MessageType} {payload : Bytes} (h : checkFrame f = .valid t payload) :
    f.length = 21 ∧ fromLe32 (slice f 17 20) = crc32 (slice f 0 16) := by
  unfold checkFrame at h
  split_ifs at h with hlength hcrc
  exact ⟨not_not.mp hlength, not_not.mp hcrc⟩

/-- The CRC is checked before the type (R131). -/
theorem checkFrame_badCrc {f : Bytes} (hlength : f.length = 21)
    (hcrc : fromLe32 (slice f 17 20) ≠ crc32 (slice f 0 16)) : checkFrame f = .invalid .badCrc := by
  rw [checkFrame, if_neg (not_not.mpr hlength), if_pos hcrc]

theorem slice_length (f : Bytes) (i j : Nat) : (slice f i j).length = min (j + 1 - i) (f.length - i) := by
  rw [slice, List.length_take, List.length_drop]

theorem slice_set (f : Bytes) {i j k : Nat} (b : Byte) (h : i ≤ k) :
    slice (f.set k b) i j = (slice f i j).set (k - i) b := by
  rw [slice, slice, List.drop_set, if_neg (not_lt.mpr h), List.take_set]

/-- A byte before a slice is not in it. -/
theorem slice_set_of_lt (f : Bytes) {i j k : Nat} (b : Byte) (h : k < i) : slice (f.set k b) i j = slice f i j := by
  rw [slice, slice, List.drop_set_of_lt h]

/-- A byte behind the first ones is not among them. -/
theorem slice_zero_set_of_gt (f : Bytes) {j k : Nat} (b : Byte) (h : j < k) : slice (f.set k b) 0 j = slice f 0 j :=
  List.take_set_of_le h

theorem slice_getD (f : Bytes) {i j k : Nat} (hi : i ≤ k) (hj : k ≤ j) : (slice f i j).getD (k - i) 0 = f.getD k 0 := by
  have hk : k - i < j + 1 - i := by omega
  rw [slice, List.getD_eq_getElem?_getD, List.getElem?_take_of_lt hk, List.getElem?_drop, Nat.add_sub_cancel' hi,
    List.getD_eq_getElem?_getD]

theorem eq_getD_of_set_eq_self {s : Bytes} {k : Nat} (hk : k < s.length) {b : Byte} (h : s.set k b = s) :
    b = s.getD k 0 := by
  calc b = (s.set k b).getD k 0 := by simp [hk]
    _ = s.getD k 0 := by rw [h]

/-- Four bytes are told apart by the word they stand for (R42). -/
theorem fromLe32_inj {s t : Bytes} (hs : s.length = 4) (ht : t.length = 4) (h : fromLe32 s = fromLe32 t) : s = t := by
  rw [← le32_fromLe32 hs, h, le32_fromLe32 ht]

/-- Settles O49: a change of a covered byte changes the CRC and not the field, a change of a field byte the field and not the
CRC; so if the two still agreed, the byte would be unchanged. -/
theorem oneChangedByteIsDetected : Obligations.OneChangedByteIsDetected := by
  intro f t payload k b hvalid hk hb
  obtain ⟨hlength, hcrc⟩ := checkFrame_valid hvalid
  refine checkFrame_badCrc (by rw [List.length_set, hlength]) fun hset => hb ?_
  by_cases hcovered : k < 17
  · have hbody : k < (slice f 0 16).length := by rw [slice_length, hlength]; omega
    rw [slice_set_of_lt f b hcovered, slice_set f b (Nat.zero_le k), hcrc] at hset
    exact (eq_getD_of_crc32_set hbody b hset.symm).trans (slice_getD f (Nat.zero_le k) (by omega))
  · have hstart : 17 ≤ k := not_lt.mp hcovered
    have hfour : (slice f 17 20).length = 4 := by rw [slice_length, hlength]; rfl
    have hfield : k - 17 < (slice f 17 20).length := by omega
    rw [slice_zero_set_of_gt f b (by omega), slice_set f b hstart, ← hcrc] at hset
    have hsame := fromLe32_inj (by rw [List.length_set, hfour]) hfour hset
    exact (eq_getD_of_set_eq_self hfield hsame).trans (slice_getD f hstart (by omega))

/-! ## The commands -/

/-- Settles O18: every other row's meaning is one `complete`. -/
theorem commandsWithoutErrorsCompleteOk : Obligations.CommandsWithoutErrorsCompleteOk := by
  intro i s hwrite herase hdata
  cases i with
  | buildCmdWrite n => exact absurd rfl (hwrite n)
  | buildCmdErase n => exact absurd rfl (herase n)
  | buildData c => exact absurd rfl (hdata c)
  | _ => exact ⟨_, _, rfl, rfl⟩

theorem exec_crcInit (s : State) : exec .crcInit s = complete none (writeAcc Config.crcInit s) := rfl

theorem exec_crcUpdate (b : Byte) (s : State) :
    exec (.crcUpdate b) s = complete none (writeAcc (crcAbsorb s.acc b) s) := rfl

/-- Settles O20: both write ACC and then complete without a result, and completing keeps the inputs. -/
theorem accWritersLeaveInputs : Obligations.AccWritersLeaveInputs := by
  rintro i s t (rfl | ⟨b, rfl⟩) h
  · obtain ⟨-, hinbox, hcompletion⟩ := complete_spec ((exec_crcInit s).symm.trans h)
    exact ⟨hinbox, hcompletion⟩
  · obtain ⟨-, hinbox, hcompletion⟩ := complete_spec ((exec_crcUpdate b s).symm.trans h)
    exact ⟨hinbox, hcompletion⟩

/-- An instruction other than CRC_UPDATE changes nothing when issued again (R49). -/
theorem exec_again {i : Instr} (hupdate : ∀ b, i ≠ .crcUpdate b) (s t : State) (h : exec i s = .next t) :
    exec i t = .next t :=
  let ⟨hagain, _⟩ := allButUpdateAreIdempotent
  hagain i s t hupdate h

/-- Settles O29: the row's definitions give decoding and next state, and only CRC_UPDATE differs when issued again. -/
theorem crcInitSetsAcc : Obligations.CrcInitSetsAcc :=
  ⟨rfl, fun _ => rfl, exec_again nofun⟩

/-- CRC_UPDATE takes a Byte operand and no other kind (R63, R106). -/
theorem decode_crcUpdate_wrongKind {o : Operand} (h : o.format ≠ .b) :
    decode (.command 0x11#8 o) = .error (.wrongOperandKind 0x11#8) := by
  cases o with
  | byte b => exact absurd rfl h
  | _ => rfl

/-- Settles O30: the row's definitions give decoding and next state; the other kinds and the corner case are evaluated. -/
theorem crcUpdateAbsorbsOneByte : Obligations.CrcUpdateAbsorbsOneByte :=
  ⟨fun _ => rfl, fun _ _ => rfl, fun _ => decode_crcUpdate_wrongKind, by decide +kernel⟩

/-- Settles O31: the reset value's result is the general one at 0xFFFFFFFF. -/
theorem crcFinalReadsInvertedAcc : Obligations.CrcFinalReadsInvertedAcc := by
  refine ⟨rfl, fun _ => rfl, exec_again nofun, fun s hacc => ?_, by decide, by decide +kernel⟩
  have hzero : crcFinalize s.acc = 0#32 := by rw [hacc]; rfl
  rw [exec_crcFinal, hzero]
  rfl

/-- Settles O32: the row's meaning never mentions ACC, and the empty fold is the initial value, inverted. -/
theorem crcOneShotLeavesAcc : Obligations.CrcOneShotLeavesAcc :=
  ⟨fun _ => rfl, fun _ _ => rfl, by decide⟩

/-! ## Byte-serial sequences -/

/-- The step of a CRC_FINAL hands back the inverted ACC and takes nothing but its own input. -/
theorem step_finalRequest {s : State} {rest : List Event} (h : s.inbox = finalRequest :: rest) :
    step s = .next (done s.acc (some (.word32 (crcFinalize s.acc))) (after rest s)) :=
  step_request h

/-- A run through a byte-serial sequence and its CRC_FINAL, from any ACC, goes on from the state that holds the fold of the
bytes, the inverted fold as result, and the later inputs. -/
theorem run_serial (k : Nat) (bs : Bytes) {s : State} {rest : List Event}
    (h : s.inbox = bs.map updateRequest ++ finalRequest :: rest) :
    Host.Core.run Sys2Proof.core (bs.length + 1 + k) s = Host.Core.run Sys2Proof.core k
      (done (crcAbsorbAll s.acc bs) (some (.word32 (crcFinalize (crcAbsorbAll s.acc bs)))) (after rest s)) := by
  induction bs generalizing s with
  | nil =>
    rw [List.length_nil, Nat.zero_add, Nat.add_comm 1 k]
    exact run_succ k (step_finalRequest h)
  | cons b bs ih =>
    obtain ⟨u, hstep, hinbox, hacc⟩ := step_of_inbox_cons h
    have hlength : (b :: bs).length + 1 + k = bs.length + 1 + k + 1 := by rw [List.length_cons]; omega
    rw [hlength, run_succ _ hstep, ih hinbox, hacc, accAfterEvent_updateRequest, crcAbsorbAll_cons]
    rfl

/-- Settles O34: the run of one sequence (`run_serial`), from R5's initial ACC. -/
theorem serialCrcEqualsOneShotCrc : Obligations.SerialCrcEqualsOneShotCrc := by
  intro bs s rest hacc hinbox
  refine ⟨_, run_serial 0 bs hinbox, ?_⟩
  rw [hacc]
  rfl

/-- Settles O35: the second run (`run_serial`) starts from the ACC that the first left, and absorbing goes on there. -/
theorem secondSerialCrcContinuesFirst : Obligations.SecondSerialCrcContinuesFirst := by
  intro bs cs s rest hacc hinbox
  have hlength : bs.length + cs.length + 2 = bs.length + 1 + (cs.length + 1 + 0) := by omega
  have hrun := (run_serial (cs.length + 1 + 0) bs hinbox).trans (run_serial 0 cs rfl)
  have hcrc : crcFinalize (crcAbsorbAll (crcAbsorbAll s.acc bs) cs) = crc32 (bs ++ cs) := by
    rw [hacc, crc32_eq, crcAbsorbAll_append]
  refine ⟨_, hlength ▸ hrun, rfl, ?_⟩
  rw [← hcrc]
  rfl

end Sys2Proof.Machine
end

section
/-! PROOFS. The packet framer (R120 to R132): what the builders return, the verdict of the check by length, CRC and type, and the
data rows that share their meaning with CHECK_FRAME and INTERPRET. -/

namespace Sys2Proof.Machine

open Sys2Proof.Certificates

/-! ## Sealed frames -/

/-- A valid sector's byte is the Byte of the same value (R123). -/
theorem sectorByte_eq_sectorAsByte {n : Int} (h : 0 ≤ n) : sectorByte n = sectorAsByte n := by
  obtain ⟨k, rfl⟩ := Int.eq_ofNat_of_zero_le h
  exact BitVec.ofInt_natCast 8 k

/-- The model's sealed frame is the one written out by arithmetic (R121). -/
theorem sealFrame_eq_frameOf (t : MessageType) (payload : Bytes) :
    sealFrame t payload = frameOf (typeByte t) payload := by
  rw [sealFrame, packetBytes, le32_eq_leBytes, frameOf]

theorem frameOf_payload (b : Byte) {payload : Bytes} (h : payload.length = 16) :
    ((frameOf b payload).drop 1).take 16 = payload :=
  List.take_left' h

theorem frameOf_crcField (b : Byte) {payload : Bytes} (h : payload.length = 16) :
    (frameOf b payload).drop 17 = leBytes (crc32 (b :: payload)) :=
  List.drop_left' (by rw [List.length_cons, h])

theorem leBytes_injective : Function.Injective leBytes :=
  Function.LeftInverse.injective fromLe32_leBytes

/-- Sequences that differ in their first byte only have different CRCs. -/
theorem eq_of_crc32_cons_eq {b c : Byte} {s : Bytes} (h : crc32 (b :: s) = crc32 (c :: s)) : b = c :=
  eq_getD_of_crc32_set (s := c :: s) (k := 0) (Nat.zero_lt_succ _) b h

/-- Frames of one payload and two type bytes differ in the CRC field (R127). -/
theorem frameOf_crcField_ne {b c : Byte} {payload : Bytes} (hlength : payload.length = 16) (hne : b ≠ c) :
    (frameOf b payload).drop 17 ≠ (frameOf c payload).drop 17 := by
  rw [frameOf_crcField b hlength, frameOf_crcField c hlength]
  exact fun h => hne (eq_of_crc32_cons_eq (leBytes_injective h))

/-! ## The builders -/

theorem sectorFrame_length (n : Int) : (sectorAsByte n :: zeroBytes 15).length = 16 := rfl

theorem paddedChunk_length {c : Bytes} (h : c.length ≤ 16) : (c ++ zeroBytes (16 - c.length)).length = 16 :=
  pad16_length h

/-- A CMD builder of a legal sector returns the sealed frame of its type (R126, R127). -/
theorem buildCmd_of_legal (t : MessageType) {n : Int} (s : State) (h0 : 0 ≤ n) (h255 : n ≤ 255) :
    buildCmd t n s =
      .next (done s.acc (some (.frame (frameOf (typeByte t) (sectorAsByte n :: zeroBytes 15)))) s) := by
  rw [buildCmd_valid ((validSector_iff n).mpr ⟨h0, h255⟩), sectorPayload, sectorByte_eq_sectorAsByte h0,
    sealFrame_eq_frameOf]
  rfl

/-- A CMD builder of any other sector raises INVALID_SECTOR (R126, R127). -/
theorem buildCmd_of_illegal (t : MessageType) {n : Int} (s : State) (h : n < 0 ∨ 255 < n) :
    buildCmd t n s = .next (failed (.invalidSector n) s) := by
  have hinvalid : validSector n = false := by
    rw [Bool.eq_false_iff, ne_eq, validSector_iff]
    omega
  exact buildCmd_invalid hinvalid s

/-- Settles O39: the CMD builder at its type, with the row's decoding. -/
theorem buildCmdWriteBuildsOrRejects : Obligations.BuildCmdWriteBuildsOrRejects :=
  ⟨fun _ => rfl, fun _ => buildCmd_of_legal .cmdWrite, fun _ => buildCmd_of_illegal .cmdWrite⟩

/-- Settles O40: as O39; the two frames carry one payload, and the CRC tells their type bytes apart. -/
theorem buildCmdEraseBuildsOrRejects : Obligations.BuildCmdEraseBuildsOrRejects := by
  refine ⟨fun _ => rfl, fun _ => buildCmd_of_legal .cmdErase, fun _ => buildCmd_of_illegal .cmdErase, fun n _ _ => ⟨?_, ?_⟩⟩
  · rw [frameOf_payload _ (sectorFrame_length n), frameOf_payload _ (sectorFrame_length n)]
  · exact frameOf_crcField_ne (sectorFrame_length n) (by decide)

/-- BUILD_DATA of a chunk that fits returns the sealed frame of the chunk and its padding (R128). -/
theorem execBuildData_frame {c : Bytes} (s : State) (h : c.length ≤ 16) :
    execBuildData c s = .next (done s.acc (some (.frame (frameOf 0x03#8 (c ++ zeroBytes (16 - c.length))))) s) := by
  rw [execBuildData_of_le h, sealFrame_eq_frameOf]
  rfl

/-- BUILD_DATA of a longer chunk raises PAYLOAD_TOO_LARGE (R128). -/
theorem execBuildData_of_gt {c : Bytes} (s : State) (h : 16 < c.length) :
    execBuildData c s = .next (failed (.payloadTooLarge c.length) s) :=
  if_pos h

/-- Settles O41: the two cases of the length; `[0x00]` is the empty chunk with one trailing zero. -/
theorem buildDataPadsOrRejects : Obligations.BuildDataPadsOrRejects :=
  ⟨fun _ => rfl, fun _ => execBuildData_frame, fun _ => execBuildData_of_gt,
    fun s => (dataFrameHidesTrailingZeros [] 1 s (by decide)).symm⟩

/-- BUILD_FINISH returns the sealed frame of sixteen zeros (R129). -/
theorem execBuildFinish_frame (s : State) :
    execBuildFinish s = .next (done s.acc (some (.frame (frameOf 0x04#8 (zeroBytes 16)))) s) := by
  rw [execBuildFinish, sealFrame_eq_frameOf]
  rfl

/-- Settles O43: the row's decoding, and its one frame. -/
theorem buildFinishIsConstant : Obligations.BuildFinishIsConstant :=
  ⟨rfl, execBuildFinish_frame⟩

/-! ## The checks -/

/-- VERIFY_SIZE returns the comparison of the length (R130). -/
theorem exec_verifySize (f : Bytes) (s : State) :
    exec (.verifySize f) s = .next (done s.acc (some (.bool (f.length == 21))) s) := rfl

/-- CHECK_FRAME returns the check's verdict (R131). -/
theorem exec_checkFrame (f : Bytes) (s : State) :
    exec (.checkFrame f) s = .next (done s.acc (some (.frameCheck (checkFrame f))) s) := rfl

/-- Settles O44: the comparison is decided by the hypothesis on the length. -/
theorem verifySizeChecksLengthOnly : Obligations.VerifySizeChecksLengthOnly := by
  refine ⟨fun _ => rfl, fun f s h => ?_, fun f s h => ?_⟩
  · rw [exec_verifySize, beq_iff_eq.mpr h]
  · rw [exec_verifySize, beq_eq_false_iff_ne.mpr h]

/-- Length comes first (R131). -/
theorem checkFrame_badLength {f : Bytes} (h : f.length ≠ 21) : checkFrame f = .invalid .badLength :=
  if_pos h

/-- Once length and CRC are right, the type byte decides (R131). -/
theorem checkFrame_of_crc {f : Bytes} (hlength : f.length = 21) (hcrc : fromLe32 (slice f 17 20) = crc32 (slice f 0 16)) :
    checkFrame f = (typeOfByte (byteAt f 0)).elim (.invalid .badType) (fun t => .valid t (slice f 1 16)) := by
  rw [checkFrame, if_neg (not_not.mpr hlength), if_neg (not_not.mpr hcrc)]
  cases typeOfByte (byteAt f 0) <;> rfl

/-- The four bytes that stand for a word are its little-endian bytes (R42). -/
theorem fromLe32_eq_iff {s : Bytes} (h : s.length = 4) (v : Word32) : fromLe32 s = v ↔ s = leBytes v := by
  constructor
  · rintro rfl
    rw [← le32_eq_leBytes, le32_fromLe32 h]
  · rintro rfl
    exact fromLe32_leBytes v

/-- The check's CRC comparison, with the field's bytes written out. -/
theorem crcField_eq_iff {f : Bytes} (h : f.length = 21) :
    fromLe32 (slice f 17 20) = crc32 (slice f 0 16) ↔ f.drop 17 = leBytes (crc32 (f.take 17)) := by
  have hfour : (f.drop 17).length = 4 := by rw [List.length_drop, h]
  have hfield : slice f 17 20 = f.drop 17 := List.take_of_length_le hfour.le
  rw [hfield]
  exact fromLe32_eq_iff hfour _

/-- The verdict by the type byte, with R65's four values written out. -/
theorem typeVerdict_eq (b : Byte) (payload : Bytes) :
    (typeOfByte b).elim (.invalid .badType) (fun t => .valid t payload) =
      if b = 0x01#8 then FrameCheck.valid .cmdWrite payload
      else if b = 0x02#8 then .valid .cmdErase payload
      else if b = 0x03#8 then .valid .data payload
      else if b = 0x04#8 then .valid .finish payload
      else .invalid .badType := by
  unfold typeOfByte
  split_ifs <;> rfl

/-- Settles O45: the check's three questions in order; the examples are evaluated. -/
theorem checkFrameVerdictInOrder : Obligations.CheckFrameVerdictInOrder := by
  refine ⟨fun _ => rfl, fun f s hlength => ?_, fun f s hlength hcrc => ?_, fun f s b rest hlength hcrc hf => ?_,
    by decide +kernel, by decide +kernel⟩
  · rw [exec_checkFrame, checkFrame_badLength hlength]
  · rw [exec_checkFrame, checkFrame_badCrc hlength (mt (crcField_eq_iff hlength).mp hcrc)]
  · rw [exec_checkFrame, checkFrame_of_crc hlength ((crcField_eq_iff hlength).mpr hcrc), ← typeVerdict_eq, hf]
    rfl

/-- A frame that passes has the verdict's type in its type byte. -/
theorem typeOfByte_of_checkFrame_valid {f : Bytes} {t : MessageType} {payload : Bytes}
    (h : checkFrame f = .valid t payload) : typeOfByte (byteAt f 0) = some t := by
  obtain ⟨hlength, hcrc⟩ := checkFrame_valid h
  rw [checkFrame_of_crc hlength hcrc] at h
  cases htype : typeOfByte (byteAt f 0) with
  | none => rw [htype] at h; cases h
  | some u => rw [htype] at h; cases h; rfl

/-- A sealed frame passes with its own type and payload (R121, R131). -/
theorem checkFrame_frameOf (t : MessageType) {payload : Bytes} (h : payload.length = 16) :
    checkFrame (frameOf (typeByte t) payload) = .valid t payload := by
  rw [← sealFrame_eq_frameOf, sealFrame, checkFrame_packetBytes t _ h, if_pos rfl]

/-- A frame that passes is the packet of its own fields, so the verdict's are those, and its CRC field holds their CRC. -/
theorem eq_frameOf_of_checkFrame_valid {f : Bytes} {t : MessageType} {payload : Bytes}
    (h : checkFrame f = .valid t payload) : payload.length = 16 ∧ f = frameOf (typeByte t) payload := by
  obtain ⟨hlength, -⟩ := checkFrame_valid h
  have hpayload : (slice f 1 16).length = 16 := by rw [slice_length, hlength]; rfl
  have hpacket := packet_split hlength (typeOfByte_of_checkFrame_valid h)
  rw [← hpacket, checkFrame_packetBytes t _ hpayload] at h
  split_ifs at h with hcrc
  cases h
  exact ⟨hpayload, by rw [← sealFrame_eq_frameOf, sealFrame, ← hcrc, hpacket]⟩

/-- Settles O46: one lemma for each direction. -/
theorem checkFrameAcceptsExactlySealedFrames : Obligations.CheckFrameAcceptsExactlySealedFrames := by
  refine fun f t payload => ⟨eq_frameOf_of_checkFrame_valid, ?_⟩
  rintro ⟨hlength, rfl⟩
  exact checkFrame_frameOf t hlength

theorem frameOf_length (b : Byte) {payload : Bytes} (h : payload.length = 16) : (frameOf b payload).length = 21 := by
  rw [frameOf, List.length_append, List.length_cons, h]
  rfl

/-- An instruction that returns a sealed frame returns one that passes both checks, in the state it leaves (R132). -/
theorem sealedFrame_passes {i : Instr} (t : MessageType) {payload : Bytes} {s : State} (hlength : payload.length = 16)
    (h : exec i s = .next (done s.acc (some (.frame (frameOf (typeByte t) payload))) s)) :
    ∃ u f, exec i s = .next u ∧ u = done s.acc (some (.frame f)) s ∧
      exec (.checkFrame f) u = .next (done s.acc (some (.frameCheck (.valid t payload))) u) ∧
      exec (.verifySize f) u = .next (done s.acc (some (.bool true)) u) := by
  refine ⟨_, _, h, rfl, ?_, ?_⟩
  · rw [exec_checkFrame, checkFrame_frameOf t hlength]
    rfl
  · rw [exec_verifySize, frameOf_length _ hlength]
    rfl

/-- Settles O47: each builder returns a sealed frame of a 16-byte payload. -/
theorem builtFramesPassTheCheck : Obligations.BuiltFramesPassTheCheck :=
  ⟨fun n s h0 h255 => sealedFrame_passes .cmdWrite (sectorFrame_length n) (buildCmd_of_legal .cmdWrite s h0 h255),
    fun n s h0 h255 => sealedFrame_passes .cmdErase (sectorFrame_length n) (buildCmd_of_legal .cmdErase s h0 h255),
    fun _ s h => sealedFrame_passes .data (paddedChunk_length h) (execBuildData_frame s h),
    fun s => sealedFrame_passes .finish rfl (execBuildFinish_frame s)⟩

/-! ## Every frame of a step -/

/-- The state's completion hands over no frame, or the sealed frame of a 16-byte payload. -/
def ReturnsOnlySealed (u : State) : Prop :=
  ∀ status f, u.completion = some ⟨status, some (.frame f)⟩ →
    ∃ (t : MessageType) (payload : Bytes), payload.length = 16 ∧ f = frameOf (typeByte t) payload

theorem returnsOnlySealed_frame (t : MessageType) {payload : Bytes} (acc : Word32) (s : State)
    (h : payload.length = 16) :
    ReturnsOnlySealed (done acc (some (.frame (frameOf (typeByte t) payload))) s) := by
  rintro status f hframe
  cases hframe
  exact ⟨t, payload, h, rfl⟩

theorem returnsOnlySealed_buildCmd (t : MessageType) (n : Int) {s u : State} (h : buildCmd t n s = .next u) :
    ReturnsOnlySealed u := by
  by_cases hlegal : 0 ≤ n ∧ n ≤ 255
  · obtain ⟨h0, h255⟩ := hlegal
    cases (buildCmd_of_legal t s h0 h255).symm.trans h
    exact returnsOnlySealed_frame t s.acc s (sectorFrame_length n)
  · cases (buildCmd_of_illegal t s (by omega)).symm.trans h
    exact nofun

theorem returnsOnlySealed_buildData {c : Bytes} {s u : State} (h : execBuildData c s = .next u) :
    ReturnsOnlySealed u := by
  by_cases hfits : c.length ≤ 16
  · cases (execBuildData_frame s hfits).symm.trans h
    exact returnsOnlySealed_frame .data s.acc s (paddedChunk_length hfits)
  · cases (execBuildData_of_gt s (not_le.mp hfits)).symm.trans h
    exact nofun

/-- Only the four builders return a frame. -/
theorem returnsOnlySealed_exec {i : Instr} {s u : State} (h : exec i s = .next u) : ReturnsOnlySealed u := by
  cases i with
  | buildCmdWrite n => exact returnsOnlySealed_buildCmd .cmdWrite n h
  | buildCmdErase n => exact returnsOnlySealed_buildCmd .cmdErase n h
  | buildData c => exact returnsOnlySealed_buildData h
  | buildFinish =>
    cases (execBuildFinish_frame s).symm.trans h
    exact returnsOnlySealed_frame .finish s.acc s rfl
  | _ => cases h; exact nofun

theorem returnsOnlySealed_perform {r : Request} {s u : State} (h : perform r s = .next u) : ReturnsOnlySealed u := by
  unfold perform at h
  split at h
  · exact returnsOnlySealed_exec h
  · next e _ => cases e <;> cases h <;> exact nofun

theorem returnsOnlySealed_step {s u : State} (h : step s = .next u) : ReturnsOnlySealed u := by
  obtain ⟨-, rfl⟩ | ⟨rest, -, rfl⟩ | ⟨r, rest, c, -, -, -, -, -, hperform⟩ := step_cases h
  · exact nofun
  · exact nofun
  · exact returnsOnlySealed_perform hperform

/-- Settles O48: a step's frame is sealed, so it has R64's length and begins with a message type's byte. -/
theorem everyFrameHasLengthAndKnownType : Obligations.EveryFrameHasLengthAndKnownType := by
  rintro s u ⟨status, _⟩ f h hcompletion rfl
  obtain ⟨t, payload, hlength, rfl⟩ := returnsOnlySealed_step h status f hcompletion
  exact ⟨frameOf_length _ hlength, (exists_typeOfByte_iff (typeByte t)).mp ⟨t, typeOfByte_typeByte t⟩⟩

/-! ## The data rows -/

/-- A packet row is the check of the bytes that encode it (R131; log entry 5). -/
theorem exec_of_encode_packet {i : Instr} {f : Bytes} (h : encode i = .packet f) (s : State) :
    exec i s = execCheckFrame f s := by
  cases i with
  | replyNack code rest => cases code <;> cases h
  | _ => cases h <;> rfl

/-- A reply row is the decoder's reading of the bytes that encode it (R152; log entry 5). -/
theorem exec_of_encode_reply {i : Instr} {r : Bytes} (h : encode i = .reply r) (s : State) :
    exec i s = execInterpret r s := by
  cases i with
  | replyNack code rest => cases code <;> cases h <;> rfl
  | _ => cases h <;> rfl

/-- Bytes that are no packet are rejected as those bytes (R67). -/
theorem decodePacket_error {f : Bytes} {e : DecodeError} (h : decodePacket f = .error e) : e = .notAPacket f := by
  unfold decodePacket at h
  split at h
  · split at h <;> cases h
    rfl
  · cases h
    rfl

theorem perform_packet (f : Bytes) (s : State) : perform (.packet f) s = execCheckFrame f s := by
  cases h : decode (.packet f) with
  | ok i => rw [perform_ok h, exec_of_encode_packet (encode_of_decode h)]
  | error e =>
    obtain rfl := decodePacket_error h
    rw [perform, h]
    rfl

theorem perform_reply (r : Bytes) (s : State) : perform (.reply r) s = execInterpret r s :=
  exec_of_encode_reply (encode_decodeReply r) s

/-- Settles O54: both requests come to the command's own meaning. -/
theorem dataRowsAgreeWithTheirCommands : Obligations.DataRowsAgreeWithTheirCommands :=
  ⟨perform_packet, perform_reply⟩

end Sys2Proof.Machine
end

section
/-! PROOFS. The response decoder (R150 to R156): what INTERPRET returns, the taxonomy of NACK codes, and what an outcome means for
a host's flow (R154). -/

namespace Sys2Proof.Machine

open Sys2Proof.Certificates

/-! ## INTERPRET -/

/-- INTERPRET completes OK with the reply's class, whichever it is (R152). -/
theorem exec_interpret_of_class {r : Bytes} {o : ReplyOutcome} (h : interpretReply r = o) (s : State) :
    exec (.interpret r) s = .next (done s.acc (some (.outcome o)) s) := by
  rw [← h]
  rfl

/-- Settles O51: the decoder's class of each reply, and the two codes' reasons. -/
theorem interpretClassifiesByFirstByte : Obligations.InterpretClassifiesByFirstByte :=
  ⟨fun _ => rfl, exec_interpret_of_class interpretReply_nil,
    fun rest => exec_interpret_of_class (interpretReply_ack rest),
    exec_interpret_of_class (interpretReply_nack []),
    fun c rest => exec_interpret_of_class (interpretReply_nack (c :: rest)),
    fun _ rest s hack hnack => exec_interpret_of_class (interpretReply_other hack hnack rest) s,
    by decide, by decide⟩

/-! ## The taxonomy of NACK codes -/

/-- A code that is none of 1 to 5 has no reason in the taxonomy (R151). -/
theorem nackReason_unknown {c : Byte} (h : ∀ k : Byte, 1 ≤ k.toNat → k.toNat ≤ 5 → c ≠ k) :
    nackReason c = .unknown c := by
  rw [nackReason, if_neg (h 1#8 (by decide) (by decide)), if_neg (h 2#8 (by decide) (by decide)),
    if_neg (h 3#8 (by decide) (by decide)), if_neg (h 4#8 (by decide) (by decide)),
    if_neg (h 5#8 (by decide) (by decide))]

/-- Settles O52: the five rows by evaluation; a code of the last row lies outside 1 to 5. -/
theorem nackTaxonomyIsFixed : Obligations.NackTaxonomyIsFixed := by
  refine ⟨by decide, by decide, by decide, by decide, by decide, fun c hc => nackReason_unknown ?_⟩
  rintro _ hone hfive rfl
  obtain rfl | hsix := hc
  · exact absurd hone (by decide)
  · omega

end Sys2Proof.Machine

namespace Sys2Proof.Safety

open Sys2Proof.Machine

/-! ## A host's flow -/

theorem continues_eq_true_iff (o : ReplyOutcome) : continues o = true ↔ o = .ack := by
  cases o with
  | ack => exact iff_of_true rfl rfl
  | nack | unrecognized | timeout => exact iff_of_false Bool.false_ne_true nofun

theorem errorOf_eq_none_iff (o : ReplyOutcome) : errorOf o = none ↔ o = .ack := by
  cases o with
  | ack => exact iff_of_true rfl rfl
  | nack | unrecognized | timeout => exact iff_of_false nofun nofun

/-- Settles O56: both questions single out Ack, and the other outcomes' errors are `errorOf`'s own rows. -/
theorem onlyAckContinuesAFlow : Obligations.OnlyAckContinuesAFlow :=
  ⟨continues_eq_true_iff, errorOf_eq_none_iff, fun _ => rfl, fun _ => rfl, rfl⟩

end Sys2Proof.Safety
end

section
/-! PROOFS. How commands end (R170 to R174): every request completes, a failed one leaves the block as it was, and each status is
raised by the rows of R171's table. -/

namespace Sys2Proof.Machine

open Sys2Proof.Certificates

/-! ## Completion and failure -/

/-- No step stops the machine (R170, R176). -/
theorem step_next (s : State) : ∃ t, step s = .next t := by
  match hi : s.inbox with
  | [] => exact ⟨idle s, step_nil hi⟩
  | e :: rest =>
    obtain ⟨t, hstep, -⟩ := step_of_inbox_cons hi
    exact ⟨t, hstep⟩

/-- Performing a request completes it (R170). -/
theorem perform_completion {r : Request} {s t : State} (h : perform r s = .next t) : ∃ c, t.completion = some c := by
  obtain ⟨c, -, hperform⟩ := perform_form r s
  cases hperform.symm.trans h
  exact ⟨c, rfl⟩

/-- Settles O14: every step answers, and one whose oldest input is a request performs it. -/
theorem everyStepAnswersAndEveryRequestCompletes : Obligations.EveryStepAnswersAndEveryRequestCompletes := by
  intro s
  obtain ⟨t, hstep⟩ := step_next s
  exact ⟨t, hstep, fun r rest hinbox => perform_completion ((step_request hinbox).symm.trans hstep)⟩

/-- A well-formed completion returns nothing with an error status (R75, R133). -/
theorem result_eq_none_of_failed {c : Completion} (hwf : c.wellFormed = true) (hfailed : c.status ≠ .ok) :
    c.result = none := by
  simp only [Completion.wellFormed, Bool.and_eq_true, Bool.or_eq_true, beq_iff_eq] at hwf
  obtain ⟨⟨-, hok | hnone⟩, -⟩ := hwf
  · exact absurd hok hfailed
  · exact hnone

/-- A request that fails keeps ACC (R173), because the two that write it complete OK. -/
theorem accAfterRequest_of_failed {r : Request} {s t : State} {c : Completion} (h : perform r s = .next t)
    (hcompletion : t.completion = some c) (hfailed : c.status ≠ .ok) (a : Word32) : accAfterRequest r a = a := by
  refine accAfterRequest_of_not_writer ?_ (fun b => ?_) a
  all_goals
    rintro rfl
    cases h
    cases hcompletion
    exact hfailed rfl

/-- Settles O16: only a performed request completes; failing, it keeps ACC, and the next step reads ACC and the inputs alone
(`step_congr`). -/
theorem failedCommandWritesNothing : Obligations.FailedCommandWritesNothing := by
  intro s t c h hcompletion hfailed
  obtain ⟨-, rfl⟩ | ⟨rest, -, rfl⟩ | ⟨r, rest, d, -, hwf, hd, -, hacc, hperform⟩ := step_cases h
  · cases hcompletion
  · cases hcompletion
  · obtain rfl : d = c := Option.some.inj (hd.symm.trans hcompletion)
    have hkept : t.acc = s.acc := hacc.trans (accAfterRequest_of_failed hperform hcompletion hfailed s.acc)
    exact ⟨result_eq_none_of_failed hwf hfailed, hkept, step_congr hkept rfl⟩

/-! ## The statuses of R171's table -/

/-- The status with which an instruction completes (R171). -/
def statusOf : Instr → Status
  | .buildCmdWrite n | .buildCmdErase n => if 0 ≤ n ∧ n ≤ 255 then .ok else .invalidSector n
  | .buildData chunk => if chunk.length ≤ 16 then .ok else .payloadTooLarge chunk.length
  | _ => .ok

theorem buildCmd_status (t : MessageType) (n : Int) (s : State) :
    ∃ u r, buildCmd t n s = .next u ∧
      u.completion = some ⟨if 0 ≤ n ∧ n ≤ 255 then .ok else .invalidSector n, r⟩ := by
  split
  · next h =>
    obtain ⟨h0, h255⟩ := h
    exact ⟨_, _, buildCmd_of_legal t s h0 h255, rfl⟩
  · next h => exact ⟨_, _, buildCmd_of_illegal t s (by omega), rfl⟩

theorem execBuildData_status (chunk : Bytes) (s : State) :
    ∃ t r, execBuildData chunk s = .next t ∧
      t.completion = some ⟨if chunk.length ≤ 16 then .ok else .payloadTooLarge chunk.length, r⟩ := by
  split
  · next h => exact ⟨_, _, execBuildData_frame s h, rfl⟩
  · next h => exact ⟨_, _, execBuildData_of_gt s (not_le.mp h), rfl⟩

/-- Every instruction completes with its status, in every state (R170, R171). -/
theorem exec_status (i : Instr) (s : State) :
    ∃ t r, exec i s = .next t ∧ t.completion = some ⟨statusOf i, r⟩ := by
  cases i with
  | buildCmdWrite n => exact buildCmd_status .cmdWrite n s
  | buildCmdErase n => exact buildCmd_status .cmdErase n s
  | buildData chunk => exact execBuildData_status chunk s
  | _ => exact ⟨_, _, rfl, rfl⟩

/-- The whole of R171's table for instructions: an error is a CMD builder's sector or BUILD_DATA's length. -/
theorem statusOf_cases (i : Instr) :
    statusOf i = .ok ∨
    (∃ n, (i = .buildCmdWrite n ∨ i = .buildCmdErase n) ∧ (n < 0 ∨ 255 < n) ∧ statusOf i = .invalidSector n) ∨
    (∃ chunk, i = .buildData chunk ∧ 16 < chunk.length ∧ statusOf i = .payloadTooLarge chunk.length) := by
  cases i with
  | buildCmdWrite n | buildCmdErase n =>
    by_cases h : 0 ≤ n ∧ n ≤ 255
    · exact .inl (if_pos h)
    · exact .inr (.inl ⟨n, by simp, by omega, if_neg h⟩)
  | buildData chunk =>
    by_cases h : chunk.length ≤ 16
    · exact .inl (if_pos h)
    · exact .inr (.inr ⟨chunk, rfl, not_le.mp h, if_neg h⟩)
  | _ => exact .inl rfl

theorem statusOf_eq_invalidSector_iff (i : Instr) (n : Int) :
    statusOf i = .invalidSector n ↔ (i = .buildCmdWrite n ∨ i = .buildCmdErase n) ∧ (n < 0 ∨ 255 < n) := by
  constructor
  · intro h
    obtain hs | ⟨m, hi, hm, hs⟩ | ⟨chunk, -, -, hs⟩ := statusOf_cases i <;> cases hs.symm.trans h
    exact ⟨hi, hm⟩
  · rintro ⟨rfl | rfl, hn⟩ <;> exact if_neg (by omega)

theorem statusOf_eq_payloadTooLarge_iff (i : Instr) (k : Nat) :
    statusOf i = .payloadTooLarge k ↔ ∃ chunk, i = .buildData chunk ∧ k = chunk.length ∧ 16 < k := by
  constructor
  · intro h
    obtain hs | ⟨m, -, -, hs⟩ | ⟨chunk, hi, hlength, hs⟩ := statusOf_cases i <;> cases hs.symm.trans h
    exact ⟨chunk, hi, rfl, hlength⟩
  · rintro ⟨chunk, rfl, rfl, hlength⟩
    exact if_neg (not_le.mpr hlength)

/-- No instruction is an illegal command: R63 speaks of the requests that name none. -/
theorem statusOf_ne_illegalCommand (i : Instr) (op : Byte) : statusOf i ≠ .illegalCommand op := by
  intro h
  obtain hs | ⟨m, -, -, hs⟩ | ⟨chunk, -, -, hs⟩ := statusOf_cases i <;> cases hs.symm.trans h

/-- A command of R62's map with an operand of its format names an instruction. -/
theorem decode_of_mem_opcodeFormats {op : Byte} {o : Operand} (h : (op, o.format) ∈ opcodeFormats) :
    ∃ i, decode (.command op o) = .ok i := by
  cases o with
  | none =>
    obtain rfl | rfl | rfl : op = 0x10#8 ∨ op = 0x12#8 ∨ op = 0x23#8 := by
      simpa [opcodeFormats, Operand.format] using h
    all_goals exact ⟨_, rfl⟩
  | byte b =>
    obtain rfl : op = 0x11#8 := by simpa [opcodeFormats, Operand.format] using h
    exact ⟨_, rfl⟩
  | int n =>
    obtain rfl | rfl : op = 0x20#8 ∨ op = 0x21#8 := by simpa [opcodeFormats, Operand.format] using h
    all_goals exact ⟨_, rfl⟩
  | bytes s =>
    obtain rfl | rfl | rfl | rfl | rfl : op = 0x13#8 ∨ op = 0x22#8 ∨ op = 0x24#8 ∨ op = 0x25#8 ∨ op = 0x30#8 := by
      simpa [opcodeFormats, Operand.format] using h
    all_goals exact ⟨_, rfl⟩

/-- A request that names an instruction does not complete with ILLEGAL_COMMAND. -/
theorem status_ne_illegalCommand_of_decode {r : Request} {i : Instr} {s t : State} {c : Completion}
    (hdecode : decode r = .ok i) (h : perform r s = .next t) (hcompletion : t.completion = some c) (op : Byte) :
    c.status ≠ .illegalCommand op := by
  obtain ⟨u, result, hexec, hu⟩ := exec_status i s
  cases h.symm.trans ((perform_ok hdecode s).trans hexec)
  cases hcompletion.symm.trans hu
  exact statusOf_ne_illegalCommand i op

/-- A request that completes with ILLEGAL_COMMAND is a command outside R62's map, and the opcode recorded is its own. -/
theorem not_mem_of_status_illegalCommand {r : Request} {s t : State} {c : Completion} {op : Byte}
    (h : perform r s = .next t) (hcompletion : t.completion = some c) (hstatus : c.status = .illegalCommand op) :
    ∃ o, r = .command op o ∧ (op, o.format) ∉ opcodeFormats := by
  cases r with
  | command op' o =>
    by_cases hmem : (op', o.format) ∈ opcodeFormats
    · obtain ⟨i, hdecode⟩ := decode_of_mem_opcodeFormats hmem
      exact absurd hstatus (status_ne_illegalCommand_of_decode hdecode h hcompletion op)
    · obtain ⟨-, -, hraised⟩ := raise_spec ((perform_of_not_mem hmem s).symm.trans h)
      cases hcompletion.symm.trans hraised
      cases hstatus
      exact ⟨o, rfl, hmem⟩
  | packet f =>
    obtain ⟨-, -, hok⟩ := complete_spec ((perform_packet f s).symm.trans h)
    cases hcompletion.symm.trans hok
    cases hstatus
  | reply f => exact absurd hstatus (status_ne_illegalCommand_of_decode rfl h hcompletion op)

/-- Settles O17: an instruction's status is `statusOf`, and a step's ILLEGAL_COMMAND comes from a command that does not decode. -/
theorem statusesAreRaisedExactlyAsTabled : Obligations.StatusesAreRaisedExactlyAsTabled := by
  refine ⟨rfl, fun _ => rfl, fun _ => rfl, fun _ => rfl, fun i s => ?_, fun s r rest op hinbox => ⟨?_, ?_⟩⟩
  · obtain ⟨t, result, hexec, hcompletion⟩ := exec_status i s
    exact ⟨t, _, hexec, hcompletion, statusOf_eq_invalidSector_iff i, statusOf_eq_payloadTooLarge_iff i,
      statusOf_ne_illegalCommand i⟩
  · rintro ⟨t, c, hstep, hcompletion, hstatus⟩
    exact not_mem_of_status_illegalCommand ((step_request hinbox).symm.trans hstep) hcompletion hstatus
  · rintro ⟨o, rfl, hnot⟩
    exact ⟨_, _, (step_request hinbox).trans (perform_of_not_mem hnot (setInbox rest s)), rfl, rfl⟩

end Sys2Proof.Machine
end

section
/-! PROOFS. The reset input (R190), and the host's duties over whole runs (R195 to R200): a host awaits each packet's reply, and
the wait that an Ack starts binds its next packet. -/

namespace Sys2Proof.Machine

/-- Settles O13: a step on a reset is `resetBlock` on the later inputs. -/
theorem resetInputRestoresAcc : Obligations.ResetInputRestoresAcc :=
  ⟨reset_acc, fun _ _ hinbox => step_reset hinbox⟩

end Sys2Proof.Machine

namespace Sys2Proof.Safety

open Sys2Proof.Machine

/-! ## Runs that keep the duties -/

/-- A run that keeps the duties takes its first act as a step and goes on from there. -/
theorem hostStep_of_hostRun_cons {timing : Config.HostTiming} {p last : HostPhase} {a : TimedAct} {rest : List TimedAct}
    (h : hostRun timing p (a :: rest) = some last) :
    ∃ q, hostStep timing p a = some q ∧ hostRun timing q rest = some last :=
  Option.bind_eq_some_iff.mp ((hostRun_cons timing p a rest).symm.trans h)

/-- Whatever comes after some acts of a host that keeps its duties is a run of its own, from the phase they lead to. -/
theorem exists_hostRun_of_keepsDuties {timing : Config.HostTiming} {before rest : List TimedAct}
    (h : hostKeepsDuties timing (before ++ rest) = true) : ∃ p last, hostRun timing p rest = some last := by
  obtain ⟨last, hrun⟩ := Option.isSome_iff_exists.mp h
  rw [hostRun_append] at hrun
  obtain ⟨p, -, hrest⟩ := Option.bind_eq_some_iff.mp hrun
  exact ⟨p, last, hrest⟩

/-! ## What a phase allows, and what follows a reply -/

/-- An act clears the buffers, sends a packet or takes a reply. -/
theorem HostAct.clear_or_send_or_reply (act : HostAct) :
    act = .clearBuffers ∨ act.isSend = true ∨ ∃ r w, act = .gotReply r w := by
  cases act with
  | clearBuffers => exact .inl rfl
  | sendCommand | sendChunk | sendFinish => exact .inr (.inl rfl)
  | gotReply r w => exact .inr (.inr ⟨r, w, rfl⟩)

/-- While a reply is awaited, the next act takes it (R200, log entry 14). -/
theorem gotReply_of_awaiting {timing : Config.HostTiming} {t : MessageType} {k sentAt : Nat} {b : TimedAct} {q : HostPhase}
    (h : hostStep timing (.awaiting t k sentAt) b = some q) : ∃ r w, b.act = .gotReply r w := by
  obtain hclear | hsend | hreply := b.act.clear_or_send_or_reply
  · simpa using hostStep_clear h hclear
  · simpa using (hostStep_send h hsend).1
  · exact hreply

/-- After a flow that failed, the next act clears the buffers (R199, R200). -/
theorem clearBuffers_of_failed {timing : Config.HostTiming} {b : TimedAct} {q : HostPhase}
    (h : hostStep timing .failed b = some q) : b.act = .clearBuffers := by
  obtain hclear | hsend | ⟨r, w, hreply⟩ := b.act.clear_or_send_or_reply
  · exact hclear
  · simpa using (hostStep_send h hsend).1
  · simpa using hostStep_reply h hreply

/-- A reply that is no Ack ends the flow (R154). -/
theorem afterReply_of_ne_ack {o : ReplyOutcome} (h : o ≠ .ack) (timing : Config.HostTiming) (t : MessageType)
    (chunk now : Nat) : afterReply timing t chunk now o = .failed :=
  if_neg (mt (continues_eq_true_iff o).mp h)

/-- The command packet that a host sends is a frame of the type whose reply it then awaits. -/
theorem hostStep_sendCommand {timing : Config.HostTiming} {p q : HostPhase} {c : TimedAct} {f : Bytes}
    (h : hostStep timing p c = some q) (hc : c.act = .sendCommand f) :
    ∃ t k, q = .awaiting t k c.time ∧ typeOfFrame f = some t := by
  obtain ⟨⟨n, -, rfl | ⟨t, k, rfl⟩⟩, -⟩ := hostStep_send h (hc ▸ rfl)
  · simp only [hostStep, hc] at h
    split at h
    · next hwrite => cases h; exact ⟨_, _, rfl, hwrite.2⟩
    · split at h
      · next herase => cases h; exact ⟨_, _, rfl, herase.2⟩
      · cases h
  · simp [hostStep, hc] at h

/-- Settles O57: a sent packet leads to `awaiting` and a reply that is no Ack to `failed`, and either phase allows one kind of act. -/
theorem hostSendsNextOnlyAfterAck : Obligations.HostSendsNextOnlyAfterAck := by
  intro timing before rest a b hkeeps
  obtain ⟨p, last, hrun⟩ := exists_hostRun_of_keepsDuties hkeeps
  obtain ⟨q, ha, hrun⟩ := hostStep_of_hostRun_cons hrun
  obtain ⟨q', hb, -⟩ := hostStep_of_hostRun_cons hrun
  refine ⟨fun ⟨f, hact⟩ => ?_, fun r w hact hreply => ?_⟩
  · have hsend : a.act.isSend = true := by
      obtain hact | ⟨k, hact⟩ | hact := hact <;> rw [hact] <;> rfl
    obtain ⟨-, t, k, rfl⟩ := hostStep_send ha hsend
    exact gotReply_of_awaiting hb
  · obtain ⟨t, k, sentAt, -, -, -, -, rfl⟩ := hostStep_reply ha hact
    rw [afterReply_of_ne_ack hreply] at hb
    exact clearBuffers_of_failed hb

/-! ## The wait after an Ack -/

/-- The time before which no packet may go, in a phase that carries one (R195). -/
def HostPhase.notBefore : HostPhase → Option Nat
  | .quiet n => some n
  | .cleared n => some n
  | .ready _ _ n => some n
  | .awaiting _ _ _ => none
  | .failed => none

/-- An Ack starts the wait of its packet, whether the flow goes on or FINISH has ended it (R195). -/
theorem notBefore_afterReply_ack (timing : Config.HostTiming) (t : MessageType) (chunk now : Nat) :
    (afterReply timing t chunk now .ack).notBefore = some (now + waitAfter timing t) := by
  cases t <;> rfl

/-- An act that sends no packet leaves the wait as it is: it can only be a clearing of the buffers. -/
theorem hostStep_keeps_notBefore {timing : Config.HostTiming} {p q : HostPhase} {m : TimedAct} {n : Nat}
    (h : hostStep timing p m = some q) (hp : p.notBefore = some n) (hm : m.act.isSend = false) : q.notBefore = some n := by
  obtain hclear | hsend | ⟨r, w, hreply⟩ := m.act.clear_or_send_or_reply
  · obtain ⟨n', rfl | rfl, rfl⟩ | ⟨rfl, -⟩ := hostStep_clear h hclear
    · exact hp
    · exact hp
    · cases hp
  · simp [hm] at hsend
  · obtain ⟨t, k, sentAt, rfl, -⟩ := hostStep_reply h hreply
    cases hp

/-- A packet goes only once the wait is over. -/
theorem notBefore_le_of_send {timing : Config.HostTiming} {p q : HostPhase} {b : TimedAct} {n : Nat}
    (h : hostStep timing p b = some q) (hp : p.notBefore = some n) (hb : b.act.isSend = true) : n ≤ b.time := by
  obtain ⟨⟨n', hle, rfl | ⟨t, k, rfl⟩⟩, -⟩ := hostStep_send h hb
  · cases hp
    exact hle
  · cases hp
    exact hle

/-- The wait binds the next packet, however many other acts come before it. -/
theorem notBefore_le_of_next_send {timing : Config.HostTiming} {between rest : List TimedAct} {b : TimedAct} {n : Nat}
    (hbetween : ∀ m ∈ between, m.act.isSend = false) (hb : b.act.isSend = true) {p last : HostPhase}
    (hrun : hostRun timing p (between ++ b :: rest) = some last) (hp : p.notBefore = some n) : n ≤ b.time := by
  induction between generalizing p with
  | nil =>
    obtain ⟨q, hstep, -⟩ := hostStep_of_hostRun_cons hrun
    exact notBefore_le_of_send hstep hp hb
  | cons m between ih =>
    obtain ⟨hm, hbetween⟩ := List.forall_mem_cons.mp hbetween
    obtain ⟨q, hstep, hrun⟩ := hostStep_of_hostRun_cons hrun
    exact ih hbetween hrun (hostStep_keeps_notBefore hstep hp hm)

/-- R195: ACK_SETTLE is part of every wait. -/
theorem ackSettle_le_waitAfter (timing : Config.HostTiming) (t : MessageType) : timing.ackSettle ≤ waitAfter timing t := by
  cases t with
  | cmdWrite | cmdErase => exact Nat.le_max_left _ _
  | data | finish => exact Nat.le_refl _

/-- R196: a command's wait covers its post-command delay. -/
theorem postErase_le_waitAfter (timing : Config.HostTiming) : timing.postErase ≤ waitAfter timing .cmdErase :=
  Nat.le_max_right _ _

theorem postWrite_le_waitAfter (timing : Config.HostTiming) : timing.postWrite ≤ waitAfter timing .cmdWrite :=
  Nat.le_max_right _ _

/-- Settles O59: the Ack of a packet of type `t` starts `waitAfter timing t`, which binds the next packet; a command's frame fixes
`t`, and the wait of each type covers the delays named. -/
theorem hostWaitsAfterEveryAck : Obligations.HostWaitsAfterEveryAck := by
  intro timing before between rest c a b r w hkeeps hc ha hack hbetween hb
  obtain ⟨p, last, hrun⟩ := exists_hostRun_of_keepsDuties hkeeps
  obtain ⟨p', hsent, hrun⟩ := hostStep_of_hostRun_cons hrun
  obtain ⟨q, htaken, hrun⟩ := hostStep_of_hostRun_cons hrun
  obtain ⟨t, k, sentAt, rfl, -, -, -, rfl⟩ := hostStep_reply htaken ha
  rw [hack] at hrun
  have hwait : a.time + waitAfter timing t ≤ b.time :=
    notBefore_le_of_next_send hbetween hb hrun (notBefore_afterReply_ack timing t k a.time)
  have htype : ∀ f t', c.act = .sendCommand f → typeOfFrame f = some t' → t' = t := by
    intro f t' hact hframe
    obtain ⟨u, k', hphase, hu⟩ := hostStep_sendCommand hsent hact
    cases hphase
    exact Option.some.inj (hframe.symm.trans hu)
  refine ⟨?_, fun f hact hframe => ?_, fun f hact hframe => ?_⟩
  · exact (Nat.add_le_add_left (ackSettle_le_waitAfter timing t) a.time).trans hwait
  · cases htype f .cmdErase hact hframe
    exact (Nat.add_le_add_left (postErase_le_waitAfter timing) a.time).trans hwait
  · cases htype f .cmdWrite hact hframe
    exact (Nat.add_le_add_left (postWrite_le_waitAfter timing) a.time).trans hwait

end Sys2Proof.Safety
end

section
/-! PROOFS. The engine against the catalogued CRC-32 (R112): the left-shifting register holds the engine's accumulator reflected.
Then the spec's computed examples. -/

namespace Sys2Proof.Machine

open Sys2Proof.Certificates

/-! ## Reflection -/

theorem reverse_xor {w : Nat} (a b : BitVec w) : (a ^^^ b).reverse = a.reverse ^^^ b.reverse := by
  refine BitVec.eq_of_getLsbD_eq fun i _ => ?_
  simp only [BitVec.getLsbD_xor, BitVec.getLsbD_reverse, BitVec.getMsbD_xor]

/-- Reflection turns a shift to the right into one to the left. -/
theorem reverse_ushiftRight {w : Nat} (a : BitVec w) (n : Nat) : (a >>> n).reverse = a.reverse <<< n := by
  refine BitVec.eq_of_getLsbD_eq fun i _ => ?_
  simp only [BitVec.getLsbD_shiftLeft, BitVec.getLsbD_reverse, BitVec.getMsbD_ushiftRight, Bool.and_assoc]

/-- A byte reflected into the upper eight bits is the widened byte (R102), reflected as a word. -/
theorem reverse_zext32 (b : Byte) : (zext32 b).reverse = reflectedHigh b := by
  refine BitVec.eq_of_getLsbD_eq fun i hi => ?_
  have hindex : i + 8 - 32 = i - 24 := by omega
  have hwidth : i - 24 < 32 := by omega
  simp only [zext32, reflectedHigh, BitVec.getLsbD_reverse, BitVec.getMsbD_setWidth, BitVec.getLsbD_shiftLeft,
    BitVec.getLsbD_setWidth, hindex, hi, hwidth, decide_true, Bool.true_and, ← decide_not, Nat.not_lt]

/-- R5's polynomial is the catalogue's, reflected. -/
theorem reverse_crcPoly : Config.crcPoly.reverse = 0x04C11DB7#32 := by
  have hbits : ∀ i < 32, Config.crcPoly.getMsbD i = (0x04C11DB7#32).getLsbD i := by decide
  exact BitVec.eq_of_getLsbD_eq fun i hi => BitVec.getLsbD_reverse.trans (hbits i hi)

/-- Reflecting leaves a word of ones as it is. -/
theorem reverse_crcInit : Config.crcInit.reverse = 0xFFFFFFFF#32 := by
  have hbits : ∀ i < 32, Config.crcInit.getMsbD i = (0xFFFFFFFF#32).getLsbD i := by decide
  exact BitVec.eq_of_getLsbD_eq fun i hi => BitVec.getLsbD_reverse.trans (hbits i hi)

/-! ## The left-shifting register -/

/-- One iteration of the engine (R101), reflected, is one step of the left-shifting register. -/
theorem reverse_crcBitStep (a : Word32) : (crcBitStep a).reverse = msbStep a.reverse := by
  rw [msbStep, BitVec.msb_reverse]
  cases h : a.getLsbD 0 with
  | true => rw [crcBitStep_low h, reverse_xor, reverse_ushiftRight, reverse_crcPoly, if_pos rfl]
  | false => rw [crcBitStep_high h, reverse_ushiftRight, if_neg Bool.false_ne_true]

/-- Absorbing a byte (R102), reflected, is absorbing the reflected byte. -/
theorem reverse_crcAbsorb (a : Word32) (b : Byte) :
    (crcAbsorb a b).reverse = msbStep^[8] (a.reverse ^^^ reflectedHigh b) := by
  have hsteps : Function.Semiconj BitVec.reverse crcBitStep^[8] msbStep^[8] :=
    Function.Semiconj.iterate_right reverse_crcBitStep 8
  rw [crcAbsorb, crcBitSteps_eq_iterate, hsteps.eq, reverse_xor, reverse_zext32]

theorem reverse_crcAbsorbAll (a : Word32) (s : Bytes) :
    (crcAbsorbAll a s).reverse = s.foldl (fun t b => msbStep^[8] (t ^^^ reflectedHigh b)) a.reverse :=
  (List.foldl_hom BitVec.reverse fun t b => (reverse_crcAbsorb t b).symm).symm

/-- Settles O37: the register ends with the engine's accumulator reflected, and the output is reflected back. -/
theorem crcEqualsCataloguedCrc32 : Obligations.CrcEqualsCataloguedCrc32 := by
  intro s
  have hregister : crcAbsorbAll Config.crcInit s =
      (s.foldl (fun t b => msbStep^[8] (t ^^^ reflectedHigh b)) 0xFFFFFFFF#32).reverse := by
    rw [← reverse_crcInit, ← reverse_crcAbsorbAll, BitVec.reverse_reverse_eq]
  rw [crc32_eq, crcFinalize_eq_xor, hregister, crcIsoHdlc]

/-! ## Computed examples

The engine's functions with R5's constants and the eight iterations of R102 written out: the equations that evaluate a CRC of
given bytes. -/

theorem crc32_eq_not (s : Bytes) : crc32 s = ~~~crcAbsorbAll 0xFFFFFFFF#32 s := rfl

theorem crcAbsorb_eq_iterations (a : Word32) (b : Byte) :
    crcAbsorb a b = crcBitStep (crcBitStep (crcBitStep (crcBitStep (crcBitStep (crcBitStep (crcBitStep (crcBitStep
      (a ^^^ b.setWidth 32)))))))) := rfl

theorem crcBitStep_eq_ite (a : Word32) :
    crcBitStep a = if a.getLsbD 0 then (a >>> 1) ^^^ 0xEDB88320#32 else a >>> 1 := rfl

/-- V-CRC-7, over the ASCII digits 1 to 9. -/
theorem crc32_digits :
    crc32 [0x31, 0x32, 0x33, 0x34, 0x35, 0x36, 0x37, 0x38, 0x39] = 0xCBF43926#32 := by
  simp [crc32_eq_not, crcAbsorb_eq_iterations, crcBitStep_eq_ite]

/-- V-CRC-10. -/
theorem crc32_seventeenZeros : crc32 (zeroBytes 17) = 0xC9EFF1BD#32 := by
  simp [zeroBytes, List.replicate, crc32_eq_not, crcAbsorb_eq_iterations, crcBitStep_eq_ite]

theorem crc32_cmdWrite_three : crc32 (0x01#8 :: sectorAsByte 3 :: zeroBytes 15) = 0x67818E0C#32 := by
  simp [sectorAsByte, zeroBytes, List.replicate, crc32_eq_not, crcAbsorb_eq_iterations, crcBitStep_eq_ite]

theorem crc32_cmdErase_seven : crc32 (0x02#8 :: sectorAsByte 7 :: zeroBytes 15) = 0xE02A990F#32 := by
  simp [sectorAsByte, zeroBytes, List.replicate, crc32_eq_not, crcAbsorb_eq_iterations, crcBitStep_eq_ite]

theorem crc32_data_twoBytes : crc32 (0x03#8 :: [0x20#8, 0x21#8] ++ zeroBytes 14) = 0xBC743432#32 := by
  simp [zeroBytes, List.replicate, crc32_eq_not, crcAbsorb_eq_iterations, crcBitStep_eq_ite]

theorem crc32_finish : crc32 (0x04#8 :: zeroBytes 16) = 0xBAE7D672#32 := by
  simp [zeroBytes, List.replicate, crc32_eq_not, crcAbsorb_eq_iterations, crcBitStep_eq_ite]

/-- A command that returns a frame returns the frame's CRC, once that is known, as its last four bytes. -/
theorem exec_frame_of_crc32_eq {i : Instr} {s : State} {b : Byte} {payload : Bytes} {crc : Word32}
    (h : exec i s = .next (done s.acc (some (.frame (frameOf b payload))) s)) (hcrc : crc32 (b :: payload) = crc) :
    exec i s = .next (done s.acc (some (.frame (b :: payload ++ leBytes crc))) s) := by
  rw [h, frameOf, hcrc]

/-- Settles O33: a builder's frame is known in every state (O39 to O43), and its CRC is one of those evaluated. -/
theorem computedExamplesComeOut : Obligations.ComputedExamplesComeOut := by
  obtain ⟨-, hwrite, -⟩ := buildCmdWriteBuildsOrRejects
  obtain ⟨-, herase, -⟩ := buildCmdEraseBuildsOrRejects
  obtain ⟨-, hdata, -⟩ := buildDataPadsOrRejects
  obtain ⟨-, hfinish⟩ := buildFinishIsConstant
  refine ⟨by decide, crc32_digits, crc32_seventeenZeros, fun s => ?_, fun s => ?_, fun s => ?_, fun s => ?_⟩
  · exact exec_frame_of_crc32_eq (hwrite 3 s (by decide) (by decide)) crc32_cmdWrite_three
  · exact exec_frame_of_crc32_eq (herase 7 s (by decide) (by decide)) crc32_cmdErase_seven
  · exact exec_frame_of_crc32_eq (hdata [0x20, 0x21] s (by decide)) crc32_data_twoBytes
  · exact exec_frame_of_crc32_eq (hfinish s) crc32_finish

end Sys2Proof.Machine
end
